-- ==== Sys2Proof/Word.lean ====
section
/-! DEFINITION. The word types of the JL2406: what the manual treats as bits. -/

namespace Sys2Proof

/-- A data byte of a character, a byte of a record or of a reply. -/
abbrev Byte := BitVec 8

/-- A 16-bit quantity: a check value (R5), a parameter number (R180), a flag set (R173). -/
abbrev Half := BitVec 16

/-- A 32-bit quantity: a parameter value (00 §3.4, R181) or a PUSH SETPOINT value (R82). -/
abbrev Word := BitVec 32

end Sys2Proof
end

