-- ==== Sys2Proof/Syntax.lean ====
section
/-! DEFINITION. The commands of the JL2406: one constructor for each row of spec/opcode_table.json.

Times are counted in cycles of the 48 MHz core clock (log 4). -/

namespace Sys2Proof

/-- How a management command reaches MGE: in a held MGMT telegram (R168) or in a broadcast one (R171). -/
inductive Via where
  | held
  | broadcast
  deriving DecidableEq, Repr

/-- One output of a pair (R128). -/
inductive Side where
  | hi
  | lo
  deriving DecidableEq, Repr

/-- One of the nine filtered pins (R139). -/
inductive Line where
  | trip
  | input (k : Fin 8)
  deriving DecidableEq, Repr

/-- The commands and events of spec/opcode_table.json. A management row names its carrier and its argument bytes (R194);
parameter rows name the timebase, channel or line that their parameter number selects (R180). -/
inductive Instr where
  /-- RSTn goes low (R187). -/
  | rstnFall
  /-- RSTn is released with the straps RATE1:RATE0 at this code (R187, R3). -/
  | rstnRelease (straps : BitVec 2)
  /-- The stop-bit sample of a character is taken (R1): data byte, marker bit, the sample itself, and its time. -/
  | characterReceived (data : Byte) (marker stop : Bool) (time : Nat)
  /-- The gap timer expires (R15). -/
  | gapTimeout (time : Nat)
  /-- TXO begins to send the head character (R28). -/
  | transmitCharacter (time : Nat)
  /-- A held ASSIGN telegram with a good check is handed to LRX (R23, R37 (1)). -/
  | assign (mark offer : Byte)
  /-- The tick at which the counter of timebase t returns to 0 (R118). -/
  | periodBoundary (t : Fin 2)
  /-- The tick at which the counter reaches the applied duty of channel n (R125). -/
  | dutyMatch (n : Fin 6)
  /-- The tick at which the age of an output reaches the dead time in effect (R129). -/
  | deadTimeExpiry (n : Fin 6) (side : Side)
  /-- The sample that completes the run of one filter (R139). -/
  | filteredLevelChange (line : Line)
  /-- The restart point is reached (R185). -/
  | restartTakesEffect
  | identify (via : Via)
  | readStatus (via : Via)
  | readCounters (via : Via)
  | clearCounters (via : Via)
  | acknowledgeAttention (via : Via) (flags : Half)
  | readParameter (via : Via) (number : Half)
  | writeParameter (via : Via) (number : Half) (value : Word)
  | writeAttentionMask (via : Via) (value : Word)
  | writeTripFilter (via : Via) (value : Word)
  | writeInputFilter (via : Via) (k : Fin 8) (value : Word)
  | writePeriod (via : Via) (t : Fin 2) (value : Word)
  | writePrescaler (via : Via) (t : Fin 2) (value : Word)
  | writeDeadTime (via : Via) (n : Fin 6) (value : Word)
  | writePolarity (via : Via) (n : Fin 6) (value : Word)
  | writeSafeLevels (via : Via) (n : Fin 6) (value : Word)
  | writeGate (via : Via) (n : Fin 6) (value : Word)
  | writeTripEnable (via : Via) (n : Fin 6) (value : Word)
  | writeRingMode (via : Via) (n : Fin 6) (value : Word)
  | writeRingDepth (via : Via) (n : Fin 6) (value : Word)
  | writeExceptionMask (via : Via) (n : Fin 6) (value : Word)
  /-- The record's byte i stands at bits 8i+7 to 8i. -/
  | writeMapEntry (via : Via) (index : Byte) (record : BitVec 64)
  | readMapEntry (via : Via) (index selector : Byte)
  | writeConversionRecord (via : Via) (index : Byte) (record : BitVec 128)
  | readConversionRecord (via : Via) (index selector : Byte)
  | commit (via : Via)
  | discardStaged (via : Via)
  | enable (via : Via) (set : Byte)
  | disable (via : Via) (set : Byte)
  | clearFault (via : Via) (set : Byte)
  | clearFlags (via : Via) (set : Byte)
  | start (via : Via) (set : Byte)
  | stop (via : Via) (set : Byte)
  | pushSetpoint (via : Via) (channel format conversion : Byte) (value : Word)
  | force (via : Via)
  | clear (via : Via)
  | loadSetup (via : Via) (channel : Byte) (descriptor : BitVec 64)
  | loadStart (via : Via) (channel : Byte)
  | loadCancel (via : Via) (channel : Byte)
  | loadStatus (via : Via) (channel : Byte)
  | releaseAddress (via : Via)
  | restart (via : Via)
  /-- RXI has stood at 1 for one whole bit time in WAIT_IDLE (R2). -/
  | lineIdle
  /-- RXI changes from 1 to 0 in READY (R1). -/
  | startBitEdge
  /-- The middle of the start bit is sampled at this level (R2, R15). -/
  | startBitSample (level : Bool)
  /-- TXO finishes sending a character (R28). -/
  | characterSent (time : Nat)
  /-- One tick of timebase t (R114). -/
  | timebaseTick (t : Fin 2)
  /-- One sample instant with the levels at TRIPn and IN7 to IN0 (R138). -/
  | sampleInstant (tripn : Bool) (inputs : Byte)
  deriving DecidableEq, Repr

end Sys2Proof
end

