-- ==== Sys2Proof/Config.lean ====
section
/-! DEFINITION. What is fixed for the part, and the one free value. -/

namespace Sys2Proof.Config

/-- Places of the forward FIFO (R27). -/
def fifoCapacity : Nat := 128

/-- Free value (log 9). When the header of a DATA telegram meets a full FIFO at its release, OVERRUN is counted (R29)
in the very event that takes the snapshot (R61), and the manual does not say which comes first.
`snapshotFirst i` is true when the i-th such snapshot is taken before the count. It has no body: nothing can be proved of it. -/
opaque snapshotFirst : Nat → Bool

end Sys2Proof.Config
end

