-- ==== Sys2Proof/Machine/State.lean ====
section
/-! DEFINITION. The state of the JL2406, block by block as 00 §1.3 lists it, and its value after a pin reset. -/

namespace Sys2Proof.Machine

/-! ### LRX (chapter 1) -/

/-- The character receiver (R2). `receiving true`: the start bit is confirmed by a start-bit sample of 0 (R15). -/
inductive RxState where
  | waitIdle
  | ready
  | receiving (confirmed : Bool)
  deriving DecidableEq, Repr

/-- The kind of a telegram, from the upper nibble of H0 (R4). -/
inductive Kind where
  | data
  | mgmt
  | assign
  | foreign
  deriving DecidableEq, Repr

/-- The treatment decided at header completion (R9). -/
inductive Treatment where
  | data
  | held
  | broadcast
  | passed
  | foreign
  deriving DecidableEq, Repr

/-- The attributes of a telegram whose header is complete (01 §1.4). `heard` keeps the payload of a broadcast for MGE (log 16). -/
structure Telegram where
  h0 : Byte
  h1 : Byte
  len : Nat
  treatment : Treatment
  heard : List Byte
  deriving DecidableEq, Repr

/-- The parser with the attributes of the telegram in progress (01 §1.4). -/
inductive Parser where
  | idle
  /-- H0 is taken, and H1 when present. -/
  | header (h0 : Byte) (h1 : Option Byte)
  /-- Taking payload characters; `pos` is the next position. -/
  | payload (t : Telegram) (pos : Nat)
  /-- Taking the check characters; `first` is check character 1 once taken. -/
  | check (t : Telegram) (first : Option Byte)
  | skip
  deriving DecidableEq, Repr

/-- The line errors in the index order of R19. -/
inductive LineError where
  | crc
  | framing
  | gap
  | truncated
  | length
  | overrun
  deriving DecidableEq, Repr

structure Lrx where
  rx : RxState
  rate : BitVec 2
  parser : Parser
  /-- The gap timer: stopped, or running since this time (R15). -/
  gap : Option Nat
  acc : Half
  /-- The six line error counters, each 0 to 65535 (R19). -/
  counters : Vector Nat 6
  address : Byte
  deriving DecidableEq, Repr

/-! ### FWD (chapter 2) -/

/-- The forwarding state (R25). -/
inductive FwdState where
  | idle
  | staging
  | passing
  | holding
  | cut
  deriving DecidableEq, Repr

/-- A character in the header stage, the forward FIFO or the hold buffer (R27). -/
structure LineChar where
  data : Byte
  marker : Bool
  time : Nat
  wait : Bool := false
  deriving DecidableEq, Repr

/-- The TXO transmitter (R28): sending a character since a time. -/
inductive Txo where
  | idle
  | sending (c : LineChar) (since : Nat)
  deriving DecidableEq, Repr

structure Fwd where
  state : FwdState
  stage : List LineChar
  fifo : List LineChar
  hold : List LineChar
  txo : Txo
  changed : Bool
  acc : Half
  highWater : Nat
  deriving DecidableEq, Repr

/-! ### MAP (chapters 3 and 4) -/

inductive Direction where
  | consume
  | produce
  deriving DecidableEq, Repr

inductive ByteOrder where
  | little
  | big
  deriving DecidableEq, Repr

inductive Format where
  | unsigned
  | signed
  | float
  deriving DecidableEq, Repr

/-- A map entry (R43), its numeric fields as the bytes of R191; conversion FFH is none. -/
structure MapEntry where
  used : Bool
  direction : Direction
  order : ByteOrder
  width : Byte
  format : Format
  group : Byte
  offset : Byte
  target : Byte
  source : Byte
  conversion : Byte
  deriving DecidableEq, Repr

/-- The unused entry: every field zero (R46). -/
def MapEntry.unused : MapEntry := ⟨false, .consume, .little, 0, .unsigned, 0, 0, 0, 0, 0⟩

inductive Policy where
  | hold
  | lowLimit
  deriving DecidableEq, Repr

/-- A conversion record (R44); gain, offset and limits are two's complement. -/
structure ConvRecord where
  defined : Bool
  policy : Policy
  shift : Byte
  gain : Half
  offset : Word
  low : Word
  high : Word
  deriving DecidableEq, Repr

/-- The undefined record: every field zero (R47). -/
def ConvRecord.undefined : ConvRecord := ⟨false, .hold, 0, 0, 0, 0, 0⟩

inductive Bank where
  | a
  | b
  deriving DecidableEq, Repr

/-- Where a commit comes from (03 §3.5). -/
inductive Origin where
  | command
  | broadcast
  | auto
  deriving DecidableEq, Repr

/-- The commit report (R56). -/
inductive CommitReport where
  | none
  | done (origin : Origin)
  | busy (origin : Origin)
  | rejected (origin : Origin) (entry check : Byte)
  deriving DecidableEq, Repr

/-- An entry of the telegram plan with its index in the active map bank (R58). -/
structure PlanEntry where
  index : Nat
  entry : MapEntry
  deriving DecidableEq, Repr

/-- The snapshot value of one PRODUCE entry (R61). -/
structure Produced where
  entry : MapEntry
  value : Word
  deriving DecidableEq, Repr

/-- A pending write (R67). `conversion` is the index byte of its entry, FFH for none. -/
structure PendingWrite where
  index : Nat
  channel : Byte
  format : Format
  order : ByteOrder
  width : Byte
  offset : Byte
  conversion : Byte
  cycle : Byte
  raw : List Byte
  deriving DecidableEq, Repr

structure MapUnit where
  mapA : Vector MapEntry 64
  mapB : Vector MapEntry 64
  convA : Vector ConvRecord 16
  convB : Vector ConvRecord 16
  /-- The ACTIVE bank (R45). -/
  role : Bank
  plan : Option (List PlanEntry)
  snapshot : Option (List Produced)
  holding : List PendingWrite
  lastCycle : Byte
  report : CommitReport
  deriving DecidableEq, Repr

/-! ### SPR (chapter 5) and CHN (chapter 6) -/

inductive Code where
  | below
  | within
  | above
  | unordered
  deriving DecidableEq, Repr

/-- The tag of an occupied slot (R86). -/
inductive Tag where
  | valid
  | clamped
  | subst
  deriving DecidableEq, Repr

inductive SlotOrigin where
  | telegram (cycle : Byte)
  | management
  deriving DecidableEq, Repr

/-- An occupied slot (R86); an absent duty means "repeat". -/
structure Slot where
  tag : Tag
  duty : Option Int
  code : Code
  origin : SlotOrigin
  deriving DecidableEq, Repr

inductive RingMode where
  | queued
  | latest
  deriving DecidableEq, Repr

/-- A setpoint ring (R87): its run of occupied slots, oldest first; the other places hold EMPTY (log 18). -/
structure Ring where
  slots : List Slot
  mode : RingMode
  depth : Nat
  deriving DecidableEq, Repr

/-- The four exceptions of a channel (chapter 6). -/
inductive Exc where
  | invalid
  | range
  | overrun
  | stale
  deriving DecidableEq, Repr

/-- One bit for each exception: a mask (set means masked) or the sticky flags (R102). -/
structure ExcSet where
  invalid : Bool
  range : Bool
  overrun : Bool
  stale : Bool
  deriving DecidableEq, Repr

inductive ChannelState where
  | disabled
  | armed
  | running
  | fault
  deriving DecidableEq, Repr

/-- A channel record (R102). -/
structure Channel where
  state : ChannelState
  mask : ExcSet
  sticky : ExcSet
  cause : Option Exc
  duty : Nat
  code : Code
  saturated : Bool
  deadTime : Nat
  deriving DecidableEq, Repr

inductive TbState where
  | stopped
  | running
  deriving DecidableEq, Repr

/-- A timebase record (R113). -/
structure Timebase where
  state : TbState
  prescaler : BitVec 2
  period : Nat
  staged : Nat
  counter : Nat
  deriving DecidableEq, Repr

/-! ### OST (chapter 7) and TIU (chapter 8) -/

/-- A gate setting (R126): NONE, or an input line with its active level (true for HIGH). -/
inductive Gate where
  | none
  | input (k : Fin 8) (active : Bool)
  deriving DecidableEq, Repr

inductive Polarity where
  | activeHigh
  | activeLow
  deriving DecidableEq, Repr

inductive SafeLevel where
  | inactive
  | active
  | float
  deriving DecidableEq, Repr

/-- What OST holds for one channel and its two outputs (07 introduction, R136). `afterTrip` is the MODEL's own mark (log 20): a CLEAR
has ended trip forcing and no later tick, edge or restart has come. No pin level of R133 depends on it: it is read by the levels
that R144 gives between a CLEAR and an assertion of the same moment. -/
structure Output where
  gate : Gate
  stagedDeadTime : Nat
  ageHi : Nat
  ageLo : Nat
  polHi : Polarity
  polLo : Polarity
  safeHi : SafeLevel
  safeLo : SafeLevel
  afterTrip : Bool
  deriving DecidableEq, Repr

/-- A filter (R139): filtered level, length code, run count. -/
structure Filter where
  level : Bool
  code : BitVec 2
  run : Nat
  deriving DecidableEq, Repr

structure Tiu where
  trip : Filter
  inputs : Vector Filter 8
  latch : Bool
  enable : Vector Bool 6
  deriving DecidableEq, Repr

/-! ### LCH (chapter 9) -/

inductive LoadTarget where
  | map
  | conversion
  deriving DecidableEq, Repr

/-- A load descriptor (R152). -/
structure Descriptor where
  target : LoadTarget
  first : Nat
  count : Nat
  group : Byte
  offset : Nat
  perChunk : Nat
  chain : Bool
  autoCommit : Bool
  deriving DecidableEq, Repr

inductive LoadState where
  | idle
  | ready
  | active
  | waiting
  | complete
  | cancelled
  | terminated
  deriving DecidableEq, Repr

inductive LoadError where
  | none
  | sequence
  | record
  deriving DecidableEq, Repr

/-- A load channel record with its chunk capture (R151, R154). -/
structure LoadChannel where
  descriptor : Option Descriptor
  state : LoadState
  next : Nat
  error : LoadError
  capture : Option (List Byte)
  deriving DecidableEq, Repr

/-! ### MGE (chapter 10) -/

/-- The result codes (R170). -/
inductive Result where
  | done
  | unknownCommand
  | badLength
  | badArgument
  | reservedField
  | readOnly
  | wrongState
  | busy
  | commitRejected
  | pendingException
  | tripActive
  deriving DecidableEq, Repr

/-- The MODEL's own record of what the last held execution wrote into its telegram (log 2):
result, attention summary and reply bytes of a MGMT command, or whether an ASSIGN offer was taken. -/
inductive Answer where
  | mgmt (result : Result) (summary : Byte) (reply : List Byte)
  | assign (taken : Bool)
  deriving DecidableEq, Repr

/-- The restart point of a pending RESTART (R40, log 7): still to be fixed by the end event that carries the command,
or reached when this many transmissions have ended (0: reached). -/
inductive RestartPoint where
  | carrier
  | after (n : Nat)
  deriving DecidableEq, Repr

structure Mge where
  flags : BitVec 13
  mask : BitVec 13
  restart : Option RestartPoint
  answer : Option Answer
  deriving DecidableEq, Repr

/-! ### Pins, and the whole state -/

/-- The input pins as last seen (log 10); true is 1. -/
structure Pins where
  rstn : Bool
  rxi : Bool
  tripn : Bool
  inputs : Byte
  deriving DecidableEq, Repr

structure State where
  lrx : Lrx
  fwd : Fwd
  map : MapUnit
  rings : Vector Ring 6
  chn : Vector Channel 6
  tb : Vector Timebase 2
  out : Vector Output 6
  tiu : Tiu
  lch : Vector LoadChannel 2
  mge : Mge
  pins : Pins
  /-- How often `Config.snapshotFirst` has been asked (log 9). -/
  free : Nat
  /-- The commands that wait, first in, first out. -/
  pending : List Instr
  deriving DecidableEq, Repr

/-- Why a run stops: never. The manual gives every command an effect in every state, so no step faults. -/
inductive Fault where
  deriving DecidableEq, Repr

/-- Why a command has no meaning. -/
inductive Refusal where
  /-- Raised by `exec` for a command whose meaning is not written yet; safe. No arm raises it. -/
  | notModelled (mnemonic : String)
  deriving DecidableEq, Repr

/-! ### Values after a pin reset -/

/-- R24; the line rate is the strap code sampled at the release. -/
def Lrx.reset (rate : BitVec 2) : Lrx where
  rx := .waitIdle
  rate := rate
  parser := .idle
  gap := .none
  acc := 0xFFFF
  counters := Vector.replicate 6 0
  address := 0

/-- R42. -/
def Fwd.reset : Fwd where
  state := .idle
  stage := []
  fifo := []
  hold := []
  txo := .idle
  changed := false
  acc := 0xFFFF
  highWater := 0

/-- R66. -/
def MapUnit.reset : MapUnit where
  mapA := Vector.replicate 64 .unused
  mapB := Vector.replicate 64 .unused
  convA := Vector.replicate 16 .undefined
  convB := Vector.replicate 16 .undefined
  role := .a
  plan := .none
  snapshot := .none
  holding := []
  lastCycle := 0
  report := .none

/-- R101. -/
def Ring.reset : Ring where
  slots := []
  mode := .queued
  depth := 4

def ExcSet.all : ExcSet := ⟨true, true, true, true⟩

def ExcSet.clear : ExcSet := ⟨false, false, false, false⟩

/-- R123. -/
def Channel.reset : Channel where
  state := .disabled
  mask := .all
  sticky := .clear
  cause := .none
  duty := 0
  code := .within
  saturated := false
  deadTime := 48

/-- R124. -/
def Timebase.reset : Timebase where
  state := .stopped
  prescaler := 0
  period := 4800
  staged := 4800
  counter := 0

/-- R136. -/
def Output.reset : Output where
  gate := .none
  stagedDeadTime := 48
  ageHi := 0
  ageLo := 0
  polHi := .activeHigh
  polLo := .activeHigh
  safeHi := .inactive
  safeLo := .inactive
  afterTrip := false

/-- R150. -/
def Tiu.reset : Tiu where
  trip := ⟨true, 1, 0⟩
  inputs := Vector.replicate 8 ⟨false, 0, 0⟩
  latch := false
  enable := Vector.replicate 6 true

/-- R167. -/
def LoadChannel.reset : LoadChannel where
  descriptor := .none
  state := .idle
  next := 0
  error := .none
  capture := .none

/-- R188; no answer has been written (log 10). -/
def Mge.reset : Mge where
  flags := 0
  mask := 0x1FFF
  restart := .none
  answer := .none

/-- The machine right after the release of RSTn with the strap code 00 (R187).
The strap code, the levels last seen at RXI, TRIPn and IN0 to IN7 are DESIGN CHOICES (log 10). -/
def State.reset : State where
  lrx := .reset 0
  fwd := .reset
  map := .reset
  rings := Vector.replicate 6 .reset
  chn := Vector.replicate 6 .reset
  tb := Vector.replicate 2 .reset
  out := Vector.replicate 6 .reset
  tiu := .reset
  lch := Vector.replicate 2 .reset
  mge := .reset
  pins := ⟨true, true, true, 0⟩
  free := 0
  pending := []

end Sys2Proof.Machine
end

