-- ==== Sys2Proof/Machine/Ops.lean ====
section
/-! DEFINITION. Operations shared by the meanings: bytes and the check value (R5), the per-channel records,
line error counters and attention flags, and the forward FIFO (R27 to R30). -/

namespace Sys2Proof.Machine

/-! ### Bytes -/

/-- The number whose bytes stand least significant first (00 §3.1 (3)). -/
def leNat : List Byte → Nat
  | [] => 0
  | b :: bs => b.toNat + 256 * leNat bs

/-- The low `n` bytes of a number, least significant first. -/
def leBytes : Nat → Nat → List Byte
  | 0, _ => []
  | n + 1, v => BitVec.ofNat 8 v :: leBytes n (v / 256)

/-- The byte at a place of a list; a place beyond the list reads 00H (never reached: the length test of R169 precedes). -/
def byteAt (bs : List Byte) (i : Nat) : Byte := bs[i]?.getD 0

/-- The two bytes from a place on, little-endian. -/
def halfAt (bs : List Byte) (i : Nat) : Half := BitVec.ofNat 16 (leNat ((bs.drop i).take 2))

/-- The four bytes from a place on, little-endian. -/
def wordAt (bs : List Byte) (i : Nat) : Word := BitVec.ofNat 32 (leNat ((bs.drop i).take 4))

/-- A bit as a byte. -/
def bitByte (b : Bool) : Byte := if b then 1 else 0

/-! ### The check value (R5) -/

/-- One bit of R5: the exclusive-or with bit 15, the shift, and the inversion of bits 12, 5 and 0. -/
def checkBit (acc : Half) (b : Bool) : Half :=
  if xor acc.msb b then (acc <<< 1) ^^^ 0x1021 else acc <<< 1

/-- The eight data bits of a character, bit 0 first. -/
def checkByte (acc : Half) (d : Byte) : Half :=
  ((List.range 8).map d.getLsbD).foldl checkBit acc

def checkBytes (acc : Half) (ds : List Byte) : Half := ds.foldl checkByte acc

/-- Check character 1 carries bits 15 to 8, check character 2 bits 7 to 0. -/
def highByte (v : Half) : Byte := v.extractLsb' 8 8

def lowByte (v : Half) : Byte := v.extractLsb' 0 8

/-! ### Time (R3, 00 §3.2; log 4) -/

/-- Core clock cycles of one bit time: 48 MHz over 1.5, 3, 6 or 12 Mbit/s. -/
def bitClocks (rate : BitVec 2) : Nat :=
  match rate.toNat with
  | 0 => 32
  | 1 => 16
  | 2 => 8
  | _ => 4

/-- A character time is 11 bit times. -/
def charClocks (rate : BitVec 2) : Nat := 11 * bitClocks rate

/-! ### Records of one channel, timebase or load channel -/

def State.setChannel (s : State) (n : Fin 6) (c : Channel) : State := { s with chn := s.chn.set n c }

def State.setRing (s : State) (n : Fin 6) (r : Ring) : State := { s with rings := s.rings.set n r }

def State.setOutput (s : State) (n : Fin 6) (o : Output) : State := { s with out := s.out.set n o }

def State.setTimebase (s : State) (t : Fin 2) (b : Timebase) : State := { s with tb := s.tb.set t b }

def State.setLoad (s : State) (k : Fin 2) (l : LoadChannel) : State := { s with lch := s.lch.set k l }

/-- The six channels in ascending order. -/
def allChannels : List (Fin 6) := [0, 1, 2, 3, 4, 5]

/-- TB0 serves channels 0 to 2, TB1 channels 3 to 5 (R113). -/
def timebaseOf (n : Fin 6) : Fin 2 := if n.val < 3 then 0 else 1

def channelsOf (t : Fin 2) : List (Fin 6) := if t.val = 0 then [0, 1, 2] else [3, 4, 5]

/-- A channel number held in a byte. -/
def channelOf (b : Byte) : Option (Fin 6) := if h : b.toNat < 6 then some ⟨b.toNat, h⟩ else none

/-- A load channel number held in a byte. -/
def loadChannelOf (b : Byte) : Option (Fin 2) := if h : b.toNat < 2 then some ⟨b.toNat, h⟩ else none

/-! ### Attention flags (R173) -/

/-- The attention flags by name, in the index order of R173. -/
inductive Attention where
  | chFault (n : Fin 6)
  | trip
  | loadComplete (k : Fin 2)
  | loadError (k : Fin 2)
  | lineError
  | commitFailed
  deriving DecidableEq, Repr

def Attention.index : Attention → Nat
  | .chFault n => n.val
  | .trip => 6
  | .loadComplete k => 7 + k.val
  | .loadError k => 9 + k.val
  | .lineError => 11
  | .commitFailed => 12

/-- A set flag stays set; nothing else of MGE changes (R173). -/
def State.setFlag (s : State) (a : Attention) : State :=
  { s with mge.flags := s.mge.flags ||| (1#13 <<< a.index) }

/-! ### Line error counters (R19, R20) -/

def LineError.index : LineError → Fin 6
  | .crc => 0
  | .framing => 1
  | .gap => 2
  | .truncated => 3
  | .length => 4
  | .overrun => 5

/-- A counter stops at 65535 (R19). -/
def saturate16 (n : Nat) : Nat := if n < 65535 then n + 1 else 65535

/-- One counted event: its counter, and LINE_ERROR whatever the counter holds (R20). -/
def State.countError (s : State) (e : LineError) : State :=
  let i := e.index
  State.setFlag { s with lrx.counters := s.lrx.counters.set i (saturate16 s.lrx.counters[i]) } .lineError

/-! ### The forward FIFO (R27, R29, R30) -/

/-- The FIFO level (R27). -/
def State.level (s : State) : Nat := s.fwd.fifo.length

/-- Whether all of these characters find a place. -/
def State.fits (s : State) (cs : List LineChar) : Bool := s.level + cs.length ≤ Config.fifoCapacity

/-- The characters of one entry event enter at the tail, as far as there are places; then the high-water mark is raised
to the level reached (R30), and OVERRUN is counted once if one met a full FIFO, the rest being dropped uncounted (R26 (3), R29). -/
def State.enterFifo (s : State) (cs : List LineChar) : State :=
  let fifo := s.fwd.fifo ++ cs.take (Config.fifoCapacity - s.level)
  let entered := { s with fwd.fifo := fifo, fwd.highWater := max s.fwd.highWater fifo.length }
  if s.fits cs then entered else entered.countError .overrun

/-- Characters of a telegram in PASSING enter the FIFO (R27 (2), (3)); one that meets a full FIFO puts FWD in CUT (R29 (2)). -/
def State.passChars (s : State) (cs : List LineChar) : State :=
  if s.fits cs then s.enterFifo cs else { s.enterFifo cs with fwd.state := .cut }

/-! ### Load channels holding a staged bank (R51) -/

def LoadChannel.holds (l : LoadChannel) : Bool := l.state = .active ∨ l.state = .waiting

/-- A load channel with this target is ACTIVE or WAITING. -/
def LoadChannel.holdsTarget (l : LoadChannel) (target : LoadTarget) : Bool :=
  l.holds && (l.descriptor.map (·.target) == some target)

def State.targetHeld (s : State) (target : LoadTarget) : Bool :=
  s.lch[0].holdsTarget target || s.lch[1].holdsTarget target

def State.anyHeld (s : State) : Bool := s.lch[0].holds || s.lch[1].holds

/-! ### The answer of an execution -/

/-- What carrying out a command gives: the state after it, the result code, and the reply bytes (R168 (4)). -/
structure Executed where
  state : State
  result : Result
  reply : List Byte := []
  deriving DecidableEq, Repr

/-- A refused command changes nothing and writes no reply bytes unless its rule says so (R170). -/
def refuse (r : Result) (s : State) (reply : List Byte := []) : Executed := ⟨s, r, reply⟩

/-- A command carried out. -/
def doneWith (s : State) (reply : List Byte := []) : Executed := ⟨s, .done, reply⟩

/-- A command owned by a block: its arguments read, it acts by its own rule under the origin of its carrier. -/
abbrev Rule := Origin → State → Executed

end Sys2Proof.Machine
end

