-- ==== Sys2Proof/Machine/Flags.lean ====
section
/-! DEFINITION. Flags: the exception sets of a channel (chapter 6) and the attention summary (R176). -/

namespace Sys2Proof.Machine

/-! ### Exception masks and sticky flags -/

def ExcSet.get (e : ExcSet) : Exc → Bool
  | .invalid => e.invalid
  | .range => e.range
  | .overrun => e.overrun
  | .stale => e.stale

/-- Setting one flag; a flag already set stays set (R109). -/
def ExcSet.insert (e : ExcSet) : Exc → ExcSet
  | .invalid => { e with invalid := true }
  | .range => { e with range := true }
  | .overrun => { e with overrun := true }
  | .stale => { e with stale := true }

/-- Bits 0 to 3 stand for INVALID, RANGE, OVERRUN, STALE (R102). -/
def ExcSet.ofBits (v : Word) : ExcSet := ⟨v.getLsbD 0, v.getLsbD 1, v.getLsbD 2, v.getLsbD 3⟩

def ExcSet.toNat (e : ExcSet) : Nat :=
  e.invalid.toNat + 2 * e.range.toNat + 4 * e.overrun.toNat + 8 * e.stale.toNat

/-- An exception is pending while its flag is set and its mask bit is clear; the first in the order INVALID, RANGE,
OVERRUN, STALE (R110, R111). -/
def Channel.firstPending (c : Channel) : Option Exc :=
  [Exc.invalid, .range, .overrun, .stale].find? fun e => c.sticky.get e && !c.mask.get e

/-! ### The attention summary (R176) -/

/-- The flags whose mask bit is set: the value of the source ATTENTION (R175). -/
def State.enabledFlags (s : State) : BitVec 13 := s.mge.flags &&& s.mge.mask

/-- 01H when an enabled flag is set, else 00H (R176). -/
def State.summary (s : State) : Byte := if s.enabledFlags = 0 then 0 else 1

end Sys2Proof.Machine
end

