-- ==== Sys2Proof/Machine/Operands.lean ====
section
/-! DEFINITION. Operand forms: the codes of R192, the byte layouts of R191, the field-level checks of R46 and R47,
the descriptor test of R155, and the parameter numbers of R180. -/

namespace Sys2Proof.Machine

/-! ### Codes (R192) -/

def ChannelState.code : ChannelState → Nat
  | .disabled => 0
  | .armed => 1
  | .running => 2
  | .fault => 3

def Code.code : Code → Nat
  | .below => 0
  | .within => 1
  | .above => 2
  | .unordered => 3

/-- FAULT_CAUSE: FFH for none. -/
def causeCode : Option Exc → Nat
  | none => 0xFF
  | some .invalid => 0
  | some .range => 1
  | some .overrun => 2
  | some .stale => 3

def Tag.code : Tag → Byte
  | .valid => 1
  | .clamped => 2
  | .subst => 3

def TbState.code : TbState → Nat
  | .stopped => 0
  | .running => 1

def LoadState.code : LoadState → Nat
  | .idle => 0
  | .ready => 1
  | .active => 2
  | .waiting => 3
  | .complete => 4
  | .cancelled => 5
  | .terminated => 6

def LoadError.code : LoadError → Byte
  | .none => 0
  | .sequence => 1
  | .record => 2

def Bank.code : Bank → Byte
  | .a => 0
  | .b => 1

def Origin.code : Origin → Byte
  | .command => 0
  | .broadcast => 1
  | .auto => 2

/-- The result codes of R170. -/
def Result.code : Result → Byte
  | .done => 0x00
  | .unknownCommand => 0x01
  | .badLength => 0x02
  | .badArgument => 0x03
  | .reservedField => 0x04
  | .readOnly => 0x05
  | .wrongState => 0x06
  | .busy => 0x07
  | .commitRejected => 0x08
  | .pendingException => 0x09
  | .tripActive => 0x0A

/-- Commit outcome, origin, entry index, check number as READ STATUS gives them, FFH where absent (R178). -/
def CommitReport.bytes : CommitReport → List Byte
  | .none => [0x00, 0xFF, 0xFF, 0xFF]
  | .done o => [0x01, o.code, 0xFF, 0xFF]
  | .busy o => [0x02, o.code, 0xFF, 0xFF]
  | .rejected o e c => [0x03, o.code, e, c]

/-- Head origin and head cycle number of READ STATUS (R178, R192). -/
def headBytes : Option Slot → List Byte
  | none => [0x00, 0x00]
  | some ⟨_, _, _, .telegram c⟩ => [0x01, c]
  | some ⟨_, _, _, .management⟩ => [0x02, 0x00]

/-! ### Map entries (R191, R46) -/

/-- Byte i of a record held as a bit vector. -/
def recordByte {w : Nat} (r : BitVec w) (i : Nat) : Byte := r.extractLsb' (8 * i) 8

/-- The bytes of a record in their order. -/
def recordBytes {w : Nat} (n : Nat) (r : BitVec w) : List Byte := (List.range n).map (recordByte r)

def Format.code : Format → Byte
  | .unsigned => 0
  | .signed => 1
  | .float => 2

def formatOf (b : Byte) : Option Format :=
  match b.toNat with
  | 0 => some .unsigned
  | 1 => some .signed
  | 2 => some .float
  | _ => none

/-- A conversion index byte is 0 to 15, or FFH for none (R43, R191). -/
def conversionIndexValid (b : Byte) : Bool := b.toNat < 16 || b == 0xFF

/-- The field-level check of a map entry and the entry it stores (R46); every pattern of the one-bit fields is a value. -/
def decodeMapEntry (r : BitVec 64) : Except Result MapEntry :=
  let flags := recordByte r 0
  if flags &&& 0xF8 ≠ 0 then .error .reservedField
  else if flags.getLsbD 0 = false then .ok .unused
  else
    let width := recordByte r 1
    match formatOf (recordByte r 2) with
    | none => .error .badArgument
    | some format =>
      if (width = 1 ∨ width = 2 ∨ width = 4) ∧ (recordByte r 3).toNat < 16 ∧ (recordByte r 4).toNat < 240
          ∧ conversionIndexValid (recordByte r 7) then
        .ok { used := true
              direction := if flags.getLsbD 1 then .produce else .consume
              order := if flags.getLsbD 2 then .big else .little
              width := width
              format := format
              group := recordByte r 3
              offset := recordByte r 4
              target := recordByte r 5
              source := recordByte r 6
              conversion := recordByte r 7 }
      else .error .badArgument

/-- The eight bytes of a map entry (R191). -/
def MapEntry.bytes (e : MapEntry) : List Byte :=
  [bitByte e.used ||| (if e.direction = .produce then 2 else 0) ||| (if e.order = .big then 4 else 0),
   e.width, e.format.code, e.group, e.offset, e.target, e.source, e.conversion]

/-! ### Conversion records (R191, R47) -/

def policyOf (b : Byte) : Option Policy :=
  match (b.extractLsb' 1 2).toNat with
  | 0 => some .hold
  | 1 => some .lowLimit
  | _ => none

/-- The field-level check of a conversion record and the record it stores (R47). -/
def decodeConvRecord (r : BitVec 128) : Except Result ConvRecord :=
  let flags := recordByte r 0
  if flags &&& 0xF8 ≠ 0 then .error .reservedField
  else if flags.getLsbD 0 = false then .ok .undefined
  else
    let low : Word := r.extractLsb' 64 32
    let high : Word := r.extractLsb' 96 32
    match policyOf flags with
    | none => .error .badArgument
    | some policy =>
      if (recordByte r 1).toNat < 32 ∧ low.toInt ≤ high.toInt then
        .ok { defined := true
              policy := policy
              shift := recordByte r 1
              gain := r.extractLsb' 16 16
              offset := r.extractLsb' 32 32
              low := low
              high := high }
      else .error .badArgument

/-- The sixteen bytes of a conversion record (R191). -/
def ConvRecord.bytes (c : ConvRecord) : List Byte :=
  [bitByte c.defined ||| (if c.policy = .lowLimit then 2 else 0), c.shift]
    ++ recordBytes 2 c.gain ++ recordBytes 4 c.offset ++ recordBytes 4 c.low ++ recordBytes 4 c.high

/-! ### Load descriptors (R152, R155, R191) -/

/-- The record size in bytes. -/
def LoadTarget.recordSize : LoadTarget → Nat
  | .map => 8
  | .conversion => 16

/-- The number of records of the table. -/
def LoadTarget.capacity : LoadTarget → Nat
  | .map => 64
  | .conversion => 16

/-- The chunk length L_c = 1 + k × record size (R152). -/
def Descriptor.chunkLength (d : Descriptor) : Nat := 1 + d.perChunk * d.target.recordSize

/-- One past the last record of the load. -/
def Descriptor.limit (d : Descriptor) : Nat := d.first + d.count

/-- The value test of R155 (test 4): the fields and the three limits of R152. -/
def Descriptor.valid (k : Fin 2) (d : Descriptor) : Bool :=
  decide (1 ≤ d.count ∧ d.group.toNat < 16 ∧ d.offset < 240 ∧ 1 ≤ d.perChunk ∧ d.limit ≤ d.target.capacity
    ∧ d.offset + d.chunkLength ≤ 240 ∧ (k.val = 1 → d.chain = false))

/-- Tests 3 and 4 of R155 over the eight bytes of a descriptor. -/
def decodeDescriptor (k : Fin 2) (r : BitVec 64) : Except Result Descriptor :=
  let flags := recordByte r 0
  if flags &&& 0xF8 ≠ 0 ∨ recordByte r 6 ≠ 0 ∨ recordByte r 7 ≠ 0 then .error .reservedField
  else
    let d : Descriptor :=
      { target := if flags.getLsbD 0 then .conversion else .map
        first := (recordByte r 1).toNat
        count := (recordByte r 2).toNat
        group := recordByte r 3
        offset := (recordByte r 4).toNat
        perChunk := (recordByte r 5).toNat
        chain := flags.getLsbD 1
        autoCommit := flags.getLsbD 2 }
    if d.valid k then .ok d else .error .badArgument

/-! ### Parameter numbers (R180) -/

/-- The parameters of R180. -/
inductive Param where
  | stationAddress
  | lineRate
  | attentionMask
  | attentionFlags
  | tripFilter
  | tripState
  | inputFilter (k : Fin 8)
  | inputLevels
  | period (t : Fin 2)
  | prescaler (t : Fin 2)
  | tbState (t : Fin 2)
  | deadTime (n : Fin 6)
  | polarity (n : Fin 6)
  | safeLevels (n : Fin 6)
  | gate (n : Fin 6)
  | tripEnable (n : Fin 6)
  | ringMode (n : Fin 6)
  | ringDepth (n : Fin 6)
  | exceptionMask (n : Fin 6)
  | stickyFlags (n : Fin 6)
  | channelState (n : Fin 6)
  | appliedDuty (n : Fin 6)
  | faultCause (n : Fin 6)
  deriving DecidableEq, Repr

/-- Parameter j of timebase t. -/
def timebaseParam (t : Fin 2) : Nat → Option Param
  | 0 => some (.period t)
  | 1 => some (.prescaler t)
  | 2 => some (.tbState t)
  | _ => none

/-- Parameter j of channel n. -/
def channelParam (n : Fin 6) : Nat → Option Param
  | 0x0 => some (.deadTime n)
  | 0x1 => some (.polarity n)
  | 0x2 => some (.safeLevels n)
  | 0x3 => some (.gate n)
  | 0x4 => some (.tripEnable n)
  | 0x5 => some (.ringMode n)
  | 0x6 => some (.ringDepth n)
  | 0x7 => some (.exceptionMask n)
  | 0x8 => some (.stickyFlags n)
  | 0x9 => some (.channelState n)
  | 0xA => some (.appliedDuty n)
  | 0xB => some (.faultCause n)
  | _ => none

/-- The global parameters. -/
def globalParam : Nat → Option Param
  | 0x1 => some .stationAddress
  | 0x2 => some .lineRate
  | 0x3 => some .attentionMask
  | 0x4 => some .attentionFlags
  | 0x5 => some .tripFilter
  | 0x6 => some .tripState
  | 0x8 => some (.inputFilter 0)
  | 0x9 => some (.inputFilter 1)
  | 0xA => some (.inputFilter 2)
  | 0xB => some (.inputFilter 3)
  | 0xC => some (.inputFilter 4)
  | 0xD => some (.inputFilter 5)
  | 0xE => some (.inputFilter 6)
  | 0xF => some (.inputFilter 7)
  | 0x10 => some .inputLevels
  | _ => none

/-- The parameter a number names; none for an unknown number (R180). -/
def paramOf (number : Half) : Option Param :=
  let v := number.toNat
  if v < 0x20 then globalParam v
  else if v < 0x28 then timebaseParam 0 (v - 0x20)
  else if v < 0x30 then timebaseParam 1 (v - 0x28)
  else if v < 0x100 then none
  else if h : (v - 0x100) / 16 < 6 then channelParam ⟨(v - 0x100) / 16, h⟩ ((v - 0x100) % 16)
  else none

end Sys2Proof.Machine
end

