-- ==== Sys2Proof/Machine/Outputs.lean ====
section
/-! DEFINITION. OST (chapter 7): raw waveform, gate, dead time and forcing, all derived from the state; the
level of TXO; and `event`, the frame in which every command but the two of RSTn is taken. -/

namespace Sys2Proof.Machine

/-! ### Raw level and gate (R125, R126) -/

/-- 1 while the timebase counter is below the applied duty (R125). -/
def State.raw (s : State) (n : Fin 6) : Bool := s.tb[timebaseOf n].counter < s.chn[n].duty

/-- Open without a gate input, or while its filtered level is the active level (R126). -/
def State.gateOpen (s : State) (n : Fin 6) : Bool :=
  match s.out[n].gate with
  | .none => true
  | .input k active => s.tiu.inputs[k].level == active

def State.gated (s : State) (n : Fin 6) : Bool := s.raw n && s.gateOpen n

/-! ### Dead time (R128, R129) -/

/-- Both ages restart at 0 (R128). -/
def Output.restartAges (o : Output) : Output := { o with ageHi := 0, ageLo := 0, afterTrip := false }

/-- Both ages restart at 0 at a CLEAR that ends trip forcing (R128 (4)), which is marked for R144 (log 20). -/
def Output.endForcing (o : Output) : Output := { o.restartAges with afterTrip := true }

/-- An age at 255 stays at 255 (R128). -/
def growAge (a : Nat) : Nat := if a < 255 then a + 1 else 255

/-- One tick without a restart: the age of the output at the gated level grows, the other stands at 0 (R128). -/
def Output.grow (o : Output) (level : Bool) : Output :=
  if level then { o with ageHi := growAge o.ageHi, ageLo := 0, afterTrip := false }
  else { o with ageHi := 0, ageLo := growAge o.ageLo, afterTrip := false }

def State.restartAges (s : State) (n : Fin 6) : State := s.setOutput n s.out[n].restartAges

/-- CLEAR ends trip forcing for channel n (R128 (4), R143). -/
def State.endForcing (s : State) (n : Fin 6) : State := s.setOutput n s.out[n].endForcing

def Output.age (o : Output) : Side → Nat
  | .hi => o.ageHi
  | .lo => o.ageLo

/-- The age of an output is at least the dead time in effect (R129). -/
def Output.ready (o : Output) (deadTime : Nat) (side : Side) : Bool := decide (deadTime ≤ o.age side)

/-- Whether an output of channel n is logically active (R129). -/
def State.logical (s : State) (n : Fin 6) : Side → Bool
  | .hi => s.gated n && s.out[n].ready s.chn[n].deadTime .hi
  | .lo => !s.gated n && s.out[n].ready s.chn[n].deadTime .lo

/-- Each edge of the gated level that an event makes restarts the ages of its channel (R128 (1)). Each event is taken whole in the order of
the queue: of two opposing changes of the gated level at one moment (a gate change and an edge of the raw level, a GATE write and a
change of a line) one order makes an edge and undoes it and the other makes none. That the order then shows at the pins, against the
words of R134, is the model's choice (log 21). -/
def settleEdges (before after : State) : State :=
  { after with out := Vector.ofFn fun n : Fin 6 =>
      if before.gated n = after.gated n then after.out[n] else after.out[n].restartAges }

/-! ### Forcing (R133) -/

/-- Trip forcing: case 1 of R133. -/
def State.tripForced (s : State) (n : Fin 6) : Bool := s.tiu.latch && s.tiu.enable[n]

/-- Cases 1 and 2 of R133. -/
def State.forced (s : State) (n : Fin 6) : Bool :=
  s.tripForced n || decide (s.chn[n].state ≠ .running) || decide (s.tb[timebaseOf n].state = .stopped)

/-! ### TXO (R28, R41) -/

/-- The eleven bits of a character in the order they are sent (01 §1.1). -/
def LineChar.bits (c : LineChar) : List Bool :=
  false :: ((List.range 8).map c.data.getLsbD ++ [c.marker, true])

/-- The level at TXO at a time: 1 in IDLE and while RSTn is low, else the bit being sent. -/
def State.txoLevel (s : State) (time : Nat) : Bool :=
  if s.pins.rstn = false then true
  else match s.fwd.txo with
    | .idle => true
    | .sending c since => (c.bits[(time - since) / bitClocks s.lrx.rate]?).getD true

/-! ### The frame of an event -/

/-- A command taken as one event. While RSTn is low the part takes no character, no sample, no boundary and no command (R187);
otherwise the work is done whole and each edge of a gated level restarts the ages (R128). -/
def event (work : State → State) (s : State) : Host.Outcome State Fault Refusal :=
  if s.pins.rstn = false then .next s else .next (settleEdges s (work s))

end Sys2Proof.Machine
end

