-- ==== Sys2Proof/Machine/Rings.lean ====
section
/-! DEFINITION. SPR and the channel side of it (chapters 5 and 6): entry into FAULT, push, pop, and the application of a duty. -/

namespace Sys2Proof.Machine

/-- Every occupied slot is lost (R98). -/
def Ring.emptied (r : Ring) : Ring := { r with slots := [] }

/-- The channel record on entry into FAULT (R107). -/
def Channel.faulted (c : Channel) (cause : Exc) : Channel :=
  { c with state := .fault, cause := some cause, duty := 0, code := .within, saturated := false }

/-- A channel enters FAULT: cause recorded, ring emptied, duty 0, CH_FAULT(n) set (R107). -/
def State.enterFault (s : State) (n : Fin 6) (cause : Exc) : State :=
  State.setFlag
    ((s.setChannel n (s.chn[n].faulted cause)).setRing n s.rings[n].emptied) (.chFault n)

/-- A sticky flag is set (R109). -/
def State.raise (s : State) (n : Fin 6) (e : Exc) : State :=
  s.setChannel n { s.chn[n] with sticky := s.chn[n].sticky.insert e }

/-- A push (R89 to R92): the slot is placed, replaces the one slot of a LATEST ring, or meets a full QUEUED ring. -/
def State.push (s : State) (n : Fin 6) (slot : Slot) : State :=
  let r := s.rings[n]
  match r.mode with
  | .latest => s.setRing n { r with slots := [slot] }
  | .queued =>
    if r.slots.length < r.depth then s.setRing n { r with slots := r.slots ++ [slot] }
    else if s.chn[n].mask.overrun then
      (s.raise n .overrun).setRing n { r with slots := r.slots.drop 1 ++ [slot] }
    else (s.raise n .overrun).enterFault n .overrun

/-- A candidate duty clamped to the range from 0 to P (R121). -/
def clampDuty (candidate : Int) (period : Nat) : Nat :=
  if candidate < 0 then 0 else if candidate > period then period else candidate.toNat

/-- The channel record after a candidate duty is applied in RUNNING (R121). -/
def Channel.applied (c : Channel) (candidate : Int) (code : Code) (period : Nat) : Channel :=
  { c with
    state := .running
    duty := clampDuty candidate period
    code := code
    saturated := decide ((clampDuty candidate period : Int) ≠ candidate) }

/-- Pop and application at a boundary with the new period in effect (R93 to R95, R120 (2), (3)). -/
def State.popApply (s : State) (n : Fin 6) (period : Nat) : State :=
  let c := s.chn[n]
  let r := s.rings[n]
  match r.slots with
  | slot :: rest =>
    (s.setRing n { r with slots := rest }).setChannel n (c.applied (slot.duty.getD c.duty) slot.code period)
  | [] =>
    if c.state = .running then
      let raised := s.raise n .stale
      if c.mask.stale then raised.setChannel n (raised.chn[n].applied c.duty c.code period)
      else raised.enterFault n .stale
    else s

/-- The staged dead time becomes the dead time in effect (R119). -/
def State.takeDeadTime (s : State) (n : Fin 6) : State :=
  s.setChannel n { s.chn[n] with deadTime := s.out[n].stagedDeadTime }

/-- The boundary work of one channel (R119, R120). -/
def State.channelBoundary (s : State) (period : Nat) (n : Fin 6) : State :=
  let s := s.takeDeadTime n
  if s.chn[n].state = .armed ∨ s.chn[n].state = .running then
    match s.chn[n].firstPending with
    | some e => s.enterFault n e
    | none => s.popApply n period
  else s

end Sys2Proof.Machine
end

