-- ==== Sys2Proof/Machine/Conversion.lean ====
section
/-! DEFINITION. CVU and what becomes of its result (chapter 4): field value, scaling, comparison, outcome, push or fault;
and PUSH SETPOINT. -/

namespace Sys2Proof.Machine

/-! ### The field value (R74, R75) -/

/-- The raw bytes as an unsigned number, by the byte order (R74). -/
def rawNumber (order : ByteOrder) (raw : List Byte) : Nat :=
  match order with
  | .little => leNat raw
  | .big => leNat raw.reverse

/-- A number of `bytes` bytes read as two's complement (R74). -/
def signedOf (bytes v : Nat) : Int := if 2 * v < 256 ^ bytes then v else (v : Int) - 256 ^ bytes

/-- The integer a single-precision pattern stands for, none where it raises INVALID (R75). -/
def floatValue (v : Nat) : Option Int :=
  let sign := decide (v / 2 ^ 31 % 2 = 1)
  let e := v / 2 ^ 23 % 256
  let f := v % 2 ^ 23
  if e < 127 then some 0
  else if e < 158 then
    let m : Nat := (2 ^ 23 + f) * 2 ^ (e - 127) / 2 ^ 23
    some (if sign then -(m : Int) else (m : Int))
  else if e = 158 ∧ sign = true ∧ f = 0 then some (-2147483648)
  else none

/-- The field value x; none raises INVALID, which FLOAT values alone do (R74, R75). -/
def fieldValue (format : Format) (order : ByteOrder) (raw : List Byte) : Option Int :=
  let v := rawNumber order raw
  match format with
  | .unsigned => some v
  | .signed => some (signedOf raw.length v)
  | .float => floatValue v

/-! ### Scaling, comparison and outcome (R76 to R78) -/

/-- y: the product by the gain, divided by 2^shift rounding toward minus infinity, plus the offset; exact (R76). -/
def ConvRecord.scale (c : ConvRecord) (x : Int) : Int :=
  Int.fdiv (x * c.gain.toInt) (2 ^ c.shift.toNat) + c.offset.toInt

def ConvRecord.compare (c : ConvRecord) (y : Int) : Code :=
  if y < c.low.toInt then .below else if y > c.high.toInt then .above else .within

/-- What is left for the channel: a slot's tag and duty, or a fault (R73). -/
inductive ConvOutcome where
  | slot (tag : Tag) (duty : Option Int)
  | fault (cause : Exc)
  deriving DecidableEq, Repr

/-- The result record of a conversion (R73). -/
structure Converted where
  raised : Option Exc
  code : Code
  outcome : ConvOutcome
  deriving DecidableEq, Repr

/-- The largest duty a slot carries (R77, R86). -/
def maxDuty : Int := 2147483647

/-- A value that raised INVALID (R78). -/
def convertInvalid (mask : ExcSet) (record : Option ConvRecord) : Converted :=
  { raised := some .invalid
    code := .unordered
    outcome :=
      if mask.invalid then
        .slot .subst (match record with
          | some c => if c.policy = .lowLimit then some c.low.toInt else none
          | none => none)
      else .fault .invalid }

/-- A value x with its record or none (R76 to R78). -/
def convertNumber (mask : ExcSet) (record : Option ConvRecord) (x : Int) : Converted :=
  match record with
  | none => ⟨none, .within, .slot .valid (some (if x > maxDuty then maxDuty else x))⟩
  | some c =>
    let y := c.scale x
    match c.compare y with
    | .within | .unordered => ⟨none, .within, .slot .valid (some y)⟩
    | .below => ⟨some .range, .below, if mask.range then .slot .clamped (some c.low.toInt) else .fault .range⟩
    | .above => ⟨some .range, .above, if mask.range then .slot .clamped (some c.high.toInt) else .fault .range⟩

/-- One conversion (R73). -/
def convert (mask : ExcSet) (record : Option ConvRecord) (x : Option Int) : Converted :=
  match x with
  | none => convertInvalid mask record
  | some v => convertNumber mask record v

/-! ### Handing the result on (R78 to R80) -/

/-- The sticky flag of the exception is set whatever the outcome (R80); then the slot is pushed or the channel faults. -/
def State.deliver (s : State) (n : Fin 6) (r : Converted) (origin : SlotOrigin) : State :=
  let s := match r.raised with
    | some e => s.raise n e
    | none => s
  match r.outcome with
  | .slot tag duty => s.push n ⟨tag, duty, r.code, origin⟩
  | .fault cause => s.enterFault n cause

/-- The channel takes values (R72). -/
def Channel.takesPushes (c : Channel) : Bool := c.state = .armed ∨ c.state = .running

/-- Conversion and hand-over of one value for a channel that takes pushes; otherwise the value is discarded (R70, R72). -/
def State.feed (s : State) (n : Fin 6) (record : Option ConvRecord) (x : Option Int) (origin : SlotOrigin) : State :=
  if s.chn[n].takesPushes then s.deliver n (convert s.chn[n].mask record x) origin else s

/-! ### Banks (R45) and the record a conversion index names -/

def MapUnit.activeMap (m : MapUnit) : Vector MapEntry 64 :=
  match m.role with
  | .a => m.mapA
  | .b => m.mapB

def MapUnit.stagedMap (m : MapUnit) : Vector MapEntry 64 :=
  match m.role with
  | .a => m.mapB
  | .b => m.mapA

def MapUnit.activeConv (m : MapUnit) : Vector ConvRecord 16 :=
  match m.role with
  | .a => m.convA
  | .b => m.convB

def MapUnit.stagedConv (m : MapUnit) : Vector ConvRecord 16 :=
  match m.role with
  | .a => m.convB
  | .b => m.convA

/-- The record an index byte names in the active conversion bank; FFH names none (R44). -/
def MapUnit.recordFor (m : MapUnit) (index : Byte) : Option ConvRecord := m.activeConv[index.toNat]?

/-! ### PUSH SETPOINT (R82 to R84) -/

/-- The value bytes used, and how they are read (R83). -/
def pushValue (format : Byte) (value : Word) : Option (Option Int) :=
  let v := value.toNat
  match format.toNat with
  | 0 => some (some ((v % 65536 : Nat) : Int))
  | 1 => some (some (signedOf 2 (v % 65536)))
  | 2 => some (some (v : Int))
  | 3 => some (some (signedOf 4 v))
  | 4 => some (floatValue v)
  | _ => none

/-- The tag byte of the reply: that of the slot formed, or none when the conversion faulted the channel (R84). -/
def ConvOutcome.tagByte : ConvOutcome → Byte
  | .slot tag _ => tag.code
  | .fault _ => 0

/-- Tests 3 and 4 of R82: FFH, or the index of a record that is defined in the active conversion bank. -/
def State.pushRecord (s : State) (conversion : Byte) : Option (Option ConvRecord) :=
  if conversion = 0xFF then some none
  else match s.map.recordFor conversion with
    | some c => if c.defined then some (some c) else none
    | none => none

/-- PUSH SETPOINT (R82 to R84). -/
def pushSetpoint (channel format conversion : Byte) (value : Word) : Rule := fun _ s =>
  match channelOf channel with
  | none => refuse .badArgument s
  | some n =>
    match pushValue format value with
    | none => refuse .badArgument s
    | some x =>
      match s.pushRecord conversion with
      | none => refuse .badArgument s
      | some record =>
        if s.chn[n].takesPushes then
          let r := convert s.chn[n].mask record x
          let s' := s.deliver n r .management
          doneWith s'
            [r.outcome.tagByte, BitVec.ofNat 8 r.code.code, BitVec.ofNat 8 s'.chn[n].state.code,
             BitVec.ofNat 8 s'.rings[n].slots.length]
        else refuse .wrongState s

end Sys2Proof.Machine
end

