-- ==== Sys2Proof/Machine/Timebases.lean ====
section
/-! DEFINITION. Timebases (06 §6.4, §6.5): ticks, period boundaries, START and STOP, and the four rows that name a tick. -/

namespace Sys2Proof.Machine

/-- A period boundary of timebase t: the staged period taken with the counter at 0, then the work of its channels (R118). -/
def State.boundary (s : State) (t : Fin 2) : State :=
  let b := s.tb[t]
  (channelsOf t).foldl (fun s n => s.channelBoundary b.staged n)
    (s.setTimebase t { b with period := b.staged, counter := 0 })

/-- The counter's part of a tick: one more, or from P - 1 back to 0 with a boundary (R114). -/
def State.countTick (s : State) (t : Fin 2) : State :=
  let b := s.tb[t]
  if b.counter + 1 < b.period then s.setTimebase t { b with counter := b.counter + 1 } else s.boundary t

/-- The ages of the channels of timebase t after a tick: restarted by an edge or an entry into RUNNING, else grown (R128).
That the order of this tick and another event of the same moment that restarts the ages (a gate change, the end of trip forcing) shows
at the pins when the dead time is 1, as R128, R129 and the first row of R134's table give it and against the words of R134, is the
model's choice (log 21). -/
def tickAges (t : Fin 2) (before after : State) : State :=
  { after with out := Vector.ofFn fun n : Fin 6 =>
      if timebaseOf n ≠ t then after.out[n]
      else if before.gated n ≠ after.gated n
          ∨ (before.chn[n].state ≠ .running ∧ after.chn[n].state = .running) then after.out[n].restartAges
      else after.out[n].grow (after.gated n) }

/-- One tick: a STOPPED timebase has none (R114). -/
def State.tick (s : State) (t : Fin 2) : State :=
  if s.tb[t].state = .running then tickAges t s (s.countTick t) else s

/-- TIMEBASE_TICK (R114). -/
def execTimebaseTick (t : Fin 2) (s : State) : Host.Outcome State Fault Refusal :=
  event (fun s => s.tick t) s

/-- The next tick of timebase t is its boundary. -/
def State.atPeriodEnd (s : State) (t : Fin 2) : Bool :=
  decide (s.tb[t].state = .running ∧ s.tb[t].period ≤ s.tb[t].counter + 1)

/-- PERIOD_BOUNDARY: the tick that returns the counter to 0 (R118); no such event exists elsewhere in the period (log 3, log 5). -/
def execPeriodBoundary (t : Fin 2) (s : State) : Host.Outcome State Fault Refusal :=
  event (fun s => if s.atPeriodEnd t then s.tick t else s) s

/-- The next tick brings the counter to the applied duty of channel n, inside the period. -/
def State.atDuty (s : State) (n : Fin 6) : Bool :=
  let b := s.tb[timebaseOf n]
  decide (b.state = .running ∧ b.counter + 1 < b.period ∧ b.counter + 1 = s.chn[n].duty)

/-- DUTY_MATCH: the tick at which the raw level of channel n falls (R125; logs 3, 5). -/
def execDutyMatch (n : Fin 6) (s : State) : Host.Outcome State Fault Refusal :=
  event (fun s => if s.atDuty n then s.tick (timebaseOf n) else s) s

/-- The next tick brings the age of an output of channel n to its dead time in effect and makes it logically active (R129). -/
def State.atExpiry (s : State) (n : Fin 6) (side : Side) : Bool :=
  let s' := s.tick (timebaseOf n)
  !s.logical n side && s'.logical n side && decide (s'.out[n].age side = s'.chn[n].deadTime)

/-- DEAD_TIME_EXPIRY: the tick at which an output becomes logically active (R129; logs 3, 5). -/
def execDeadTimeExpiry (n : Fin 6) (side : Side) (s : State) : Host.Outcome State Fault Refusal :=
  event (fun s => if s.atExpiry n side then s.tick (timebaseOf n) else s) s

/-! ### TIMEBASE CONTROL (R115, R116) -/

/-- The timebases a set selects, in ascending order. -/
def selectedTimebases (set : Byte) : List (Fin 2) := [0, 1].filter fun t => set.getLsbD t.val

/-- A set is 00H or names a timebase that does not exist (R115 (1)). -/
def timebaseSetBad (set : Byte) : Bool := set = 0 ∨ set &&& 0xFC ≠ 0

/-- START of one STOPPED timebase: RUNNING, a boundary at once, and the ages of its channels restarted (R115, R128 (3)). -/
def State.startTimebase (s : State) (t : Fin 2) : State :=
  (channelsOf t).foldl State.restartAges
    (State.boundary (s.setTimebase t { s.tb[t] with state := .running, counter := 0 }) t)

/-- TIMEBASE CONTROL START (R115). -/
def startTimebases (set : Byte) : Rule := fun _ s =>
  if timebaseSetBad set then refuse .badArgument s
  else match (selectedTimebases set).find? fun t => s.tb[t].state = .running with
    | some t => refuse .wrongState s [BitVec.ofNat 8 t.val]
    | none => doneWith ((selectedTimebases set).foldl State.startTimebase s)

/-- STOP of one timebase freezes its counter (R116). -/
def State.stopTimebase (s : State) (t : Fin 2) : State := s.setTimebase t { s.tb[t] with state := .stopped }

/-- TIMEBASE CONTROL STOP (R115, R116). -/
def stopTimebases (set : Byte) : Rule := fun _ s =>
  if timebaseSetBad set then refuse .badArgument s
  else doneWith ((selectedTimebases set).foldl State.stopTimebase s)

end Sys2Proof.Machine
end

