-- ==== Sys2Proof/Machine/Channels.lean ====
section
/-! DEFINITION. CHANNEL CONTROL (06 §6.2): ENABLE, DISABLE, CLEAR_FAULT, CLEAR_FLAGS over a channel set. -/

namespace Sys2Proof.Machine

/-- The channels a set selects, in ascending order. -/
def selectedChannels (set : Byte) : List (Fin 6) := allChannels.filter fun n => set.getLsbD n.val

/-- A set is 00H or has bit 6 or bit 7 set (R103 (1)). -/
def channelSetBad (set : Byte) : Bool := set = 0 ∨ set &&& 0xC0 ≠ 0

/-- A channel on entry into a state outside RUNNING and FAULT: duty 0, WITHIN, not SATURATED, no cause (R104 to R106). -/
def Channel.rested (c : Channel) (st : ChannelState) : Channel :=
  { c with state := st, cause := none, duty := 0, code := .within, saturated := false }

/-- The channel enters ARMED with an empty ring (R104, R106). -/
def State.arm (s : State) (n : Fin 6) : State :=
  (s.setChannel n (s.chn[n].rested .armed)).setRing n s.rings[n].emptied

/-- The channel enters DISABLED with an empty ring; DISABLE in DISABLED leaves every field (R105). -/
def State.disable (s : State) (n : Fin 6) : State :=
  if s.chn[n].state = .disabled then s
  else (s.setChannel n (s.chn[n].rested .disabled)).setRing n s.rings[n].emptied

/-- The four sticky flags cleared (R108). -/
def State.clearSticky (s : State) (n : Fin 6) : State := s.setChannel n { s.chn[n] with sticky := .clear }

/-- How a channel refuses ENABLE (R104). -/
def enableRefusal (c : Channel) : Option Result :=
  if c.state ≠ .disabled then some .wrongState
  else if c.firstPending.isSome then some .pendingException else none

/-- How a channel refuses CLEAR_FAULT (R106). -/
def clearFaultRefusal (c : Channel) : Option Result :=
  if c.state ≠ .fault then some .wrongState
  else if c.firstPending.isSome then some .pendingException else none

/-- The refusal of the lowest-numbered selected channel that refuses, with its number (R103 (2)). -/
def firstRefusal (s : State) (refusal : Channel → Option Result) (set : Byte) : Option (Fin 6 × Result) :=
  (selectedChannels set).findSome? fun n => (refusal s.chn[n]).map fun r => (n, r)

/-- CHANNEL CONTROL with one action (R103). -/
def channelControl (refusal : Channel → Option Result) (act : State → Fin 6 → State) (set : Byte) : Rule := fun _ s =>
  if channelSetBad set then refuse .badArgument s
  else match firstRefusal s refusal set with
    | some (n, r) => refuse r s [BitVec.ofNat 8 n.val]
    | none => doneWith ((selectedChannels set).foldl act s)

def enableChannels : Byte → Rule := channelControl enableRefusal State.arm

def disableChannels : Byte → Rule := channelControl (fun _ => none) State.disable

def clearFaultChannels : Byte → Rule := channelControl clearFaultRefusal State.arm

def clearFlagsChannels : Byte → Rule := channelControl (fun _ => none) State.clearSticky

end Sys2Proof.Machine
end

