-- ==== Sys2Proof/Machine/Tables.lean ====
section
/-! DEFINITION. MAP (chapters 3 and 4): staging, commit, telegram plan, snapshot, produced bytes and the holding list. -/

namespace Sys2Proof.Machine

/-! ### Staged banks (R45, R48 to R50) -/

/-- A map entry written into the staged bank. -/
def MapUnit.setStagedEntry (m : MapUnit) (i : Nat) (e : MapEntry) : MapUnit :=
  match m.role with
  | .a => { m with mapB := m.mapB.setIfInBounds i e }
  | .b => { m with mapA := m.mapA.setIfInBounds i e }

/-- A conversion record written into the staged bank. -/
def MapUnit.setStagedRecord (m : MapUnit) (i : Nat) (c : ConvRecord) : MapUnit :=
  match m.role with
  | .a => { m with convB := m.convB.setIfInBounds i c }
  | .b => { m with convA := m.convA.setIfInBounds i c }

/-- Both staged banks become copies of the active banks (R50, R54 (2)). -/
def MapUnit.copyActive (m : MapUnit) : MapUnit :=
  match m.role with
  | .a => { m with mapB := m.mapA, convB := m.convA }
  | .b => { m with mapA := m.mapB, convA := m.convB }

/-- WRITE MAP ENTRY (R48). -/
def writeMapEntry (index : Byte) (record : BitVec 64) : Rule := fun _ s =>
  if 64 ≤ index.toNat then refuse .badArgument s
  else if s.targetHeld .map then refuse .busy s
  else match decodeMapEntry record with
    | .error r => refuse r s
    | .ok e => doneWith { s with map := s.map.setStagedEntry index.toNat e }

/-- WRITE CONVERSION RECORD (R48). -/
def writeConversionRecord (index : Byte) (record : BitVec 128) : Rule := fun _ s =>
  if 16 ≤ index.toNat then refuse .badArgument s
  else if s.targetHeld .conversion then refuse .busy s
  else match decodeConvRecord record with
    | .error r => refuse r s
    | .ok c => doneWith { s with map := s.map.setStagedRecord index.toNat c }

/-- The map bank a selector names (R49). -/
def MapUnit.selectedMap (m : MapUnit) (selector : Byte) : Option (Vector MapEntry 64) :=
  match selector.toNat with
  | 0 => some m.activeMap
  | 1 => some m.stagedMap
  | _ => none

/-- The conversion bank a selector names (R49). -/
def MapUnit.selectedConv (m : MapUnit) (selector : Byte) : Option (Vector ConvRecord 16) :=
  match selector.toNat with
  | 0 => some m.activeConv
  | 1 => some m.stagedConv
  | _ => none

/-- READ MAP ENTRY (R49). -/
def readMapEntry (index selector : Byte) : Rule := fun _ s =>
  match (s.map.selectedMap selector).bind (·[index.toNat]?) with
  | some e => doneWith s e.bytes
  | none => refuse .badArgument s

/-- READ CONVERSION RECORD (R49). -/
def readConversionRecord (index selector : Byte) : Rule := fun _ s =>
  match (s.map.selectedConv selector).bind (·[index.toNat]?) with
  | some c => doneWith s c.bytes
  | none => refuse .badArgument s

/-- DISCARD STAGED (R50). -/
def discardStaged : Rule := fun _ s =>
  if s.anyHeld then refuse .busy s else doneWith { s with map := s.map.copyActive }

/-! ### Commit (R52 to R56) -/

/-- The number of source indexes and the widths a produced source accepts; none for an undefined code (R62). -/
def sourceShape : Nat → Option (Nat × List Nat)
  | 0x00 => some (1, [1, 2, 4])
  | 0x01 => some (6, [2])
  | 0x02 => some (6, [1])
  | 0x03 => some (6, [1])
  | 0x04 => some (1, [1])
  | 0x05 => some (1, [1])
  | 0x06 => some (1, [2])
  | 0x07 => some (2, [2])
  | 0x08 => some (6, [2])
  | 0x09 => some (1, [1])
  | _ => none

/-- One past the last payload position of the field. -/
def MapEntry.stop (e : MapEntry) : Nat := e.offset.toNat + e.width.toNat

/-- C1 (R53). -/
def MapEntry.passesC1 (e : MapEntry) : Bool := e.stop ≤ 240

/-- C2 (R53). -/
def MapEntry.passesC2 (e : MapEntry) : Bool := e.format ≠ .float ∨ (e.direction = .consume ∧ e.width = 4)

/-- C3 (R53). -/
def MapEntry.passesC3 (e : MapEntry) : Bool := e.direction = .produce ∨ e.target.toNat < 6

/-- C4 (R53): against the staged conversion bank. -/
def MapEntry.passesC4 (conv : Vector ConvRecord 16) (e : MapEntry) : Bool :=
  e.direction = .produce ∨ e.conversion = 0xFF ∨ (conv[e.conversion.toNat]?).any (·.defined)

/-- C5 (R53, R62). -/
def MapEntry.passesC5 (e : MapEntry) : Bool :=
  e.direction = .consume ||
    (e.format = .unsigned &&
      match sourceShape e.target.toNat with
      | none => false
      | some (range, widths) => e.source.toNat < range && widths.contains e.width.toNat)

/-- C6 (R53): against the used entries of lower index. -/
def MapEntry.passesC6 (lower : List MapEntry) (e : MapEntry) : Bool :=
  e.direction = .produce ∨
    !lower.any fun l => l.used && l.direction = .consume && l.group = e.group && l.target = e.target

/-- Two fields cover a common payload position. -/
def MapEntry.overlaps (a b : MapEntry) : Bool := a.offset.toNat < b.stop ∧ b.offset.toNat < a.stop

/-- C7 (R53): against the used entries of lower index. -/
def MapEntry.passesC7 (lower : List MapEntry) (e : MapEntry) : Bool :=
  e.direction = .consume ∨
    !lower.any fun l => l.used && l.direction = .produce && l.group = e.group && l.overlaps e

/-- The number of the first of C1 to C7 that a used entry fails (R53). -/
def firstFailedCheck (lower : List MapEntry) (conv : Vector ConvRecord 16) (e : MapEntry) : Option Byte :=
  if !e.passesC1 then some 1
  else if !e.passesC2 then some 2
  else if !e.passesC3 then some 3
  else if !e.passesC4 conv then some 4
  else if !e.passesC5 then some 5
  else if !e.passesC6 lower then some 6
  else if !e.passesC7 lower then some 7
  else none

/-- The walk of R53 from index `i` on: the first failing entry and check. -/
def validateFrom (conv : Vector ConvRecord 16) : List MapEntry → Nat → List MapEntry → Option (Byte × Byte)
  | _, _, [] => none
  | lower, i, e :: rest =>
    match if e.used then firstFailedCheck lower conv e else none with
    | some c => some (BitVec.ofNat 8 i, c)
    | none => validateFrom conv (lower ++ [e]) (i + 1) rest

/-- Validation of the staged banks (R53). -/
def MapUnit.validate (m : MapUnit) : Option (Byte × Byte) := validateFrom m.stagedConv [] 0 m.stagedMap.toList

def Bank.other : Bank → Bank
  | .a => .b
  | .b => .a

/-- The effect of a successful commit: roles exchanged, the newly staged banks copied from the newly active ones (R54). -/
def MapUnit.swap (m : MapUnit) : MapUnit := MapUnit.copyActive { m with role := m.role.other }

/-- The commit report takes the outcome; a failure of origin BROADCAST or AUTO sets COMMIT_FAILED (R56). -/
def State.reportCommit (s : State) (origin : Origin) (failed : Bool) (r : CommitReport) : State :=
  let s := { s with map.report := r }
  if failed && origin ≠ .command then s.setFlag .commitFailed else s

/-- A commit of any origin (R52 to R56). -/
def commit : Rule := fun origin s =>
  if s.anyHeld then refuse .busy (s.reportCommit origin true (.busy origin))
  else match s.map.validate with
    | some (entry, check) =>
      refuse .commitRejected (s.reportCommit origin true (.rejected origin entry check)) [entry, check]
    | none =>
      let s := State.reportCommit { s with map := s.map.swap } origin false (.done origin)
      doneWith s [s.map.role.code]

/-! ### The telegram plan (R58, R59) -/

/-- Placed before the first entry of equal or higher offset. -/
def insertPlan (x : PlanEntry) : List PlanEntry → List PlanEntry
  | [] => [x]
  | y :: ys => if x.entry.offset.toNat ≤ y.entry.offset.toNat then x :: y :: ys else y :: insertPlan x ys

/-- Ascending offset, equal offsets in their former order (R58). -/
def sortPlan (l : List PlanEntry) : List PlanEntry := l.foldr insertPlan []

/-- The used active entries of a group in ascending index order (R58). -/
def MapUnit.selectGroup (m : MapUnit) (group : Byte) : List PlanEntry :=
  (m.activeMap.toList.zipIdx.filter fun p => p.1.used && p.1.group = group).map fun p => ⟨p.2, p.1⟩

/-- The telegram plan of a DATA telegram of this group and length (R58, R59). -/
def MapUnit.buildPlan (m : MapUnit) (group : Byte) (len : Nat) : List PlanEntry :=
  (sortPlan (m.selectGroup group)).filter fun p => p.entry.stop ≤ len

/-! ### Sources, snapshot and produced bytes (R61 to R63, R193) -/

/-- CHANNEL_STATUS (R193). -/
def Channel.statusByte (c : Channel) : Nat := c.state.code + 4 * c.sticky.toNat + 64 * c.code.code

/-- The filtered levels of IN0 to IN7, bit k for INk (R148). -/
def Tiu.levels (u : Tiu) : Nat :=
  u.inputs.toList.foldr (fun f acc => f.level.toNat + 2 * acc) 0

/-- Bit 0: latch; bit 1: filtered trip input asserted, its level being 0 (R149). -/
def Tiu.status (u : Tiu) : Nat := u.latch.toNat + 2 * (!u.trip.level).toNat

/-- The value of a produced source at this moment (R62, R193). -/
def State.sourceValue (s : State) (code index : Nat) : Nat :=
  match code with
  | 0x01 => (s.chn[index]?.map (·.duty)).getD 0
  | 0x02 => (s.chn[index]?.map (·.statusByte)).getD 0
  | 0x03 => (s.rings[index]?.map (·.slots.length)).getD 0
  | 0x04 => s.tiu.levels
  | 0x05 => s.tiu.status
  | 0x06 => s.enabledFlags.toNat
  | 0x07 => (s.lch[index]?.map fun l => l.state.code + 256 * l.next).getD 0
  | 0x08 => s.lrx.counters[index]?.getD 0
  | 0x09 => s.map.lastCycle.toNat
  | _ => 0

/-- The snapshot of a plan: one value for each PRODUCE entry, in plan order (R61). -/
def State.takeSnapshot (s : State) (plan : List PlanEntry) : List Produced :=
  (plan.filter fun p => p.entry.direction = .produce).map fun p =>
    ⟨p.entry, BitVec.ofNat 32 (s.sourceValue p.entry.target.toNat p.entry.source.toNat)⟩

/-- The field of a width at an offset covers a position (R43). -/
def covers (offset width : Byte) (pos : Nat) : Bool := offset.toNat ≤ pos ∧ pos < offset.toNat + width.toNat

/-- The produced byte of an entry at a position its field covers (R63). -/
def Produced.byteAt (p : Produced) (pos : Nat) : Byte :=
  let i := pos - p.entry.offset.toNat
  let place := match p.entry.order with
    | .little => i
    | .big => p.entry.width.toNat - 1 - i
  p.value.extractLsb' (8 * place) 8

/-- The produced byte MAP supplies for a position, if a PRODUCE entry of the plan covers it (R31, R60). -/
def MapUnit.producedAt (m : MapUnit) (pos : Nat) : Option Byte :=
  ((m.snapshot.getD []).find? fun p => covers p.entry.offset p.entry.width pos).map (·.byteAt pos)

/-! ### The holding list (R67 to R71) -/

/-- The pending write opened for a CONSUME entry (R68). -/
def PlanEntry.pendingWrite (p : PlanEntry) (cycle : Byte) : PendingWrite where
  index := p.index
  channel := p.entry.target
  format := p.entry.format
  order := p.entry.order
  width := p.entry.width
  offset := p.entry.offset
  conversion := p.entry.conversion
  cycle := cycle
  raw := []

/-- Header completion of a DATA telegram in MAP: plan, snapshot read from `seen` (log 9), pending writes (R58, R61, R68). -/
def State.openPlan (s seen : State) (group cycle : Byte) (len : Nat) : State :=
  let plan := s.map.buildPlan group len
  { s with
    map.plan := some plan
    map.snapshot := some (seen.takeSnapshot plan)
    map.holding := (plan.filter fun p => p.entry.direction = .consume).map (·.pendingWrite cycle) }

/-- The inbound byte goes to every pending write whose field covers the position (R69). -/
def PendingWrite.collect (w : PendingWrite) (pos : Nat) (b : Byte) : PendingWrite :=
  if covers w.offset w.width pos then { w with raw := w.raw ++ [b] } else w

def State.collectByte (s : State) (pos : Nat) (b : Byte) : State :=
  { s with map.holding := s.map.holding.map (·.collect pos b) }

/-- Plan, snapshot and holding list are dropped (R60, R71). -/
def State.dropPlan (s : State) : State :=
  { s with map.plan := none, map.snapshot := none, map.holding := [] }

/-- One pending write: its channel's state tested, converted, handed on (R70, R72). -/
def State.processWrite (s : State) (w : PendingWrite) : State :=
  match channelOf w.channel with
  | some n => s.feed n (s.map.recordFor w.conversion) (fieldValue w.format w.order w.raw) (.telegram w.cycle)
  | none => s

/-- The good end of a DATA telegram in MAP: the holding list in plan order, the last cycle number, the plan dropped (R64, R70). -/
def State.processHolding (s : State) (cycle : Byte) : State :=
  let done := s.map.holding.foldl State.processWrite s
  State.dropPlan (if s.map.holding.isEmpty then done else { done with map.lastCycle := cycle })

end Sys2Proof.Machine
end

