-- ==== Sys2Proof/Machine/Loads.lean ====
section
/-! DEFINITION. LCH (chapter 9): the load commands, chunk captures, judging, chaining and auto-commit. -/

namespace Sys2Proof.Machine

/-! ### Commands (R155 to R158) -/

/-- A command that names its load channel in its first argument byte. -/
def withLoadChannel (channel : Byte) (rule : Fin 2 → Rule) : Rule := fun o s =>
  match loadChannelOf channel with
  | some k => rule k o s
  | none => refuse .badArgument s

/-- LOAD SETUP (R155). -/
def loadSetup (channel : Byte) (descriptor : BitVec 64) : Rule :=
  withLoadChannel channel fun k _ s =>
    if s.lch[k].holds then refuse .wrongState s
    else match decodeDescriptor k descriptor with
      | .error r => refuse r s
      | .ok d =>
        doneWith (s.setLoad k
          { s.lch[k] with descriptor := some d, state := .ready, next := d.first, error := .none })

/-- LC0 is ACTIVE with chain yes (R156 test 3). -/
def State.chainingLc0 (s : State) : Bool :=
  s.lch[0].state = .active && (s.lch[0].descriptor.any (·.chain))

/-- The other load channel is ACTIVE with the same target and a record in common (R156 test 4). -/
def State.loadOverlaps (s : State) (k : Fin 2) : Bool :=
  let other := s.lch[1 - k]
  match s.lch[k].descriptor, other.descriptor with
  | some d, some o =>
    decide (other.state = .active ∧ o.target = d.target ∧ d.first < o.limit ∧ o.first < d.limit)
  | _, _ => false

/-- LOAD START (R156). -/
def loadStart (channel : Byte) : Rule :=
  withLoadChannel channel fun k _ s =>
    if s.lch[k].state ≠ .ready then refuse .wrongState s
    else if k = 1 ∧ s.chainingLc0 then doneWith (s.setLoad k { s.lch[k] with state := .waiting })
    else if s.loadOverlaps k then refuse .busy s
    else doneWith (s.setLoad k { s.lch[k] with state := .active })

/-- A WAITING LC1 is cancelled (R164). -/
def State.cancelWaiting (s : State) : State :=
  if s.lch[1].state = .waiting then s.setLoad 1 { s.lch[1] with state := .cancelled } else s

/-- LOAD CANCEL (R157, R164 (2)). -/
def loadCancel (channel : Byte) : Rule :=
  withLoadChannel channel fun k _ s =>
    let l := s.lch[k]
    if l.state = .ready ∨ l.state = .active ∨ l.state = .waiting then
      let s := s.setLoad k { l with state := .cancelled }
      doneWith (if k = 0 then s.cancelWaiting else s)
    else refuse .wrongState s

/-- LOAD STATUS (R158). -/
def loadStatus (channel : Byte) : Rule :=
  withLoadChannel channel fun k _ s =>
    let l := s.lch[k]
    doneWith s [BitVec.ofNat 8 l.state.code, BitVec.ofNat 8 l.next, l.error.code]

/-! ### Captures (R153, R154) -/

/-- A capture is opened at header completion by an ACTIVE load channel whose whole chunk lies in the payload (R153). -/
def LoadChannel.openCapture (l : LoadChannel) (group : Byte) (len : Nat) : LoadChannel :=
  match l.descriptor with
  | some d =>
    if l.state = .active ∧ d.group = group ∧ d.offset + d.chunkLength ≤ len then { l with capture := some [] } else l
  | none => l

/-- The inbound byte goes to an open capture whose chunk covers the position (R154), by the descriptor held now (log 19). -/
def LoadChannel.captureByte (l : LoadChannel) (pos : Nat) (b : Byte) : LoadChannel :=
  match l.descriptor, l.capture with
  | some d, some c =>
    if d.offset ≤ pos ∧ pos < d.offset + d.chunkLength then { l with capture := some (c ++ [b]) } else l
  | _, _ => l

def State.openCaptures (s : State) (group : Byte) (len : Nat) : State :=
  { s with lch := s.lch.map (·.openCapture group len) }

def State.captureByte (s : State) (pos : Nat) (b : Byte) : State :=
  { s with lch := s.lch.map (·.captureByte pos b) }

/-- Captures discarded unjudged (R154). -/
def State.dropCaptures (s : State) : State := { s with lch := s.lch.map fun l => { l with capture := none } }

/-! ### Judging a chunk (R160, R161) -/

/-- A record of a chunk through the field-level check of its table into the staged bank (R161). -/
def storeRecord (target : LoadTarget) (i : Nat) (bytes : List Byte) (m : MapUnit) : Option MapUnit :=
  match target with
  | .map =>
    match decodeMapEntry (BitVec.ofNat 64 (leNat bytes)) with
    | .ok e => some (m.setStagedEntry i e)
    | .error _ => none
  | .conversion =>
    match decodeConvRecord (BitVec.ofNat 128 (leNat bytes)) with
    | .ok c => some (m.setStagedRecord i c)
    | .error _ => none

/-- What writing the records of a chunk gives: MAP, the next expected index, and whether every record passed. -/
structure Written where
  map : MapUnit
  next : Nat
  ok : Bool
  deriving DecidableEq, Repr

/-- The first `j` records of a chunk from index `e` on; those beyond the last record of the load are ignored (R161). -/
def writeRecords (d : Descriptor) : Nat → List Byte → Nat → MapUnit → Written
  | 0, _, e, m => ⟨m, e, true⟩
  | j + 1, bytes, e, m =>
    if e < d.limit then
      match storeRecord d.target e (bytes.take d.target.recordSize) m with
      | some m' => writeRecords d j (bytes.drop d.target.recordSize) (e + 1) m'
      | none => ⟨m, e, false⟩
    else ⟨m, e, true⟩

/-- The load channel after an expected chunk (R161). -/
def LoadChannel.afterChunk (l : LoadChannel) (d : Descriptor) (w : Written) : LoadChannel :=
  if w.ok = false then { l with state := .terminated, error := .record, next := w.next }
  else if w.next = d.limit then { l with state := .complete, next := w.next }
  else { l with next := w.next }

/-- A load channel that is ACTIVE judges its capture by the chunk index (R160). R157 lets no load command meet an open capture; where
rows queued inside a DATA telegram do, it is the model's choice (log 19) that a load channel they leave outside ACTIVE judges nothing, as
it holds no bank (R51), and that one they cancel, set up and start again judges the capture it had open by its new descriptor. -/
def State.judge (s : State) (k : Fin 2) : State :=
  let l := s.lch[k]
  match l.capture, l.descriptor with
  | some (index :: records), some d =>
    if l.state ≠ .active ∨ index.toNat < l.next then s
    else if l.next < index.toNat then s.setLoad k { l with state := .terminated, error := .sequence }
    else
      let w := writeRecords d d.perChunk records l.next s.map
      State.setLoad { s with map := w.map } k (l.afterChunk d w)
  | _, _ => s

/-! ### The good end of a DATA telegram (R159, R162 to R165) -/

/-- A load channel entered this state between two moments. -/
def loadEntered (before after : State) (k : Fin 2) (st : LoadState) : Bool :=
  before.lch[k].state ≠ st && after.lch[k].state = st

/-- LOAD_COMPLETE(k) or LOAD_ERROR(k) at the entry into COMPLETE or TERMINATED (R162). -/
def State.loadFlags (before : State) (s : State) (k : Fin 2) : State :=
  let s := if loadEntered before s k .complete then s.setFlag (.loadComplete k) else s
  if loadEntered before s k .terminated then s.setFlag (.loadError k) else s

/-- The chain effects of LC0's new state on a WAITING LC1 (R163, R164). -/
def State.chain (before : State) (s : State) : State :=
  if loadEntered before s 0 .complete && s.lch[0].descriptor.any (·.chain) then
    if s.lch[1].state = .waiting then s.setLoad 1 { s.lch[1] with state := .active } else s
  else if loadEntered before s 0 .terminated then s.cancelWaiting
  else s

/-- A load channel completed with auto-commit yes (R165). -/
def autoCommitWanted (before after : State) : Bool :=
  ([0, 1] : List (Fin 2)).any fun k =>
    loadEntered before after k .complete && after.lch[k].descriptor.any (·.autoCommit)

/-- The work of LCH at the good end of a DATA telegram, in the order of R159. -/
def State.loadsAtEnd (s : State) : State :=
  let judged := (s.judge 0).judge 1
  let flagged := State.loadFlags s (State.loadFlags s judged 0) 1
  let chained := State.chain s flagged
  let committed := if autoCommitWanted s judged then (commit .auto chained).state else chained
  committed.dropCaptures

end Sys2Proof.Machine
end

