-- ==== Sys2Proof/Machine/Trip.lean ====
section
/-! DEFINITION. TIU (chapter 8): filters, sample instants, the trip latch and TRIP CONTROL. -/

namespace Sys2Proof.Machine

/-- The filter length N of a length code (R139). -/
def filterLength (code : BitVec 2) : Nat :=
  match code.toNat with
  | 0 => 1
  | 1 => 4
  | 2 => 16
  | _ => 64

/-- One sample of one filter (R139). -/
def Filter.sample (f : Filter) (v : Bool) : Filter :=
  if v = f.level then { f with run := 0 }
  else if f.run + 1 < filterLength f.code then { f with run := f.run + 1 }
  else { f with level := v, run := 0 }

/-- A new length restarts the run and keeps the level (R140). -/
def Filter.setCode (f : Filter) (code : BitVec 2) : Filter := { f with code := code, run := 0 }

/-- The latch is set and the flag TRIP with it (R141). -/
def State.setTrip (s : State) : State := State.setFlag { s with tiu.latch := true } .trip

/-- A sample of TRIPn; the change of the filtered input to asserted sets the latch (R141). -/
def State.sampleTrip (s : State) (v : Bool) : State :=
  let f := s.tiu.trip.sample v
  let s' := { s with tiu.trip := f, pins.tripn := v }
  if s.tiu.trip.level = true ∧ f.level = false then s'.setTrip else s'

/-- A sample of INk. -/
def State.sampleInput (s : State) (k : Fin 8) (v : Bool) : State :=
  { s with
    tiu.inputs := s.tiu.inputs.set k (s.tiu.inputs[k].sample v)
    pins.inputs := if v then s.pins.inputs ||| (1#8 <<< k.val) else s.pins.inputs &&& ~~~(1#8 <<< k.val) }

/-- SAMPLE_INSTANT: all nine pins at the same instant (R138, R139). -/
def execSampleInstant (tripn : Bool) (inputs : Byte) (s : State) : Host.Outcome State Fault Refusal :=
  event (fun s =>
    ([0, 1, 2, 3, 4, 5, 6, 7] : List (Fin 8)).foldl (fun s k => s.sampleInput k (inputs.getLsbD k.val))
      (s.sampleTrip tripn)) s

/-- The next disagreeing sample completes the run (R139). -/
def Filter.atLength (f : Filter) : Bool := filterLength f.code ≤ f.run + 1

/-- FILTERED_LEVEL_CHANGE: the disagreeing sample that completes the run of one filter (R139; logs 3, 6). -/
def execFilteredLevelChange (line : Line) (s : State) : Host.Outcome State Fault Refusal :=
  event (fun s =>
    match line with
    | .trip => if s.tiu.trip.atLength then s.sampleTrip (!s.tiu.trip.level) else s
    | .input k => if s.tiu.inputs[k].atLength then s.sampleInput k (!s.tiu.inputs[k].level) else s) s

/-! ### TRIP CONTROL (R142, R143) -/

/-- The trip status byte (R149). -/
def State.tripByte (s : State) : Byte := BitVec.ofNat 8 s.tiu.status

/-- FORCE (R142). -/
def forceTrip : Rule := fun _ s => doneWith s.setTrip [s.setTrip.tripByte]

/-- The latch cleared; each channel whose trip forcing ends restarts its ages (R143, R128 (4)) and is marked for R144 (log 20). That the
order of this event and a tick without an edge at the same moment shows at the pins when the dead time is 1, as R128 and R129 give it
and against the words of R134, is the model's choice (log 21). -/
def State.clearTrip (s : State) : State :=
  allChannels.foldl (fun s' n => if s.tripForced n then s'.endForcing n else s') { s with tiu.latch := false }

/-- CLEAR (R143). -/
def clearTrip : Rule := fun _ s =>
  if s.tiu.trip.level = false then refuse .tripActive s [s.tripByte]
  else doneWith s.clearTrip [s.clearTrip.tripByte]

end Sys2Proof.Machine
end

