-- ==== Sys2Proof/Machine/Parameters.lean ====
section
/-! DEFINITION. The parameter space (10 §10.5): READ PARAMETER, WRITE PARAMETER and each owner's write. -/

namespace Sys2Proof.Machine

/-! ### Values -/

/-- The value of a gate setting (R127). -/
def Gate.value : Gate → Nat
  | .none => 0
  | .input k active => k.val + 8 + (if active then 0 else 16)

def Polarity.bit : Polarity → Nat
  | .activeHigh => 0
  | .activeLow => 1

def polarityOf (b : Bool) : Polarity := if b then .activeLow else .activeHigh

def SafeLevel.code : SafeLevel → Nat
  | .inactive => 0
  | .active => 1
  | .float => 2

def safeLevelOf : Nat → Option SafeLevel
  | 0 => some .inactive
  | 1 => some .active
  | 2 => some .float
  | _ => none

def RingMode.code : RingMode → Nat
  | .queued => 0
  | .latest => 1

/-- The value a parameter reads (R181); reserved bits read as 0. -/
def State.paramValue (s : State) : Param → Nat
  | .stationAddress => s.lrx.address.toNat
  | .lineRate => s.lrx.rate.toNat
  | .attentionMask => s.mge.mask.toNat
  | .attentionFlags => s.mge.flags.toNat
  | .tripFilter => s.tiu.trip.code.toNat
  | .tripState => s.tiu.status
  | .inputFilter k => s.tiu.inputs[k].code.toNat
  | .inputLevels => s.tiu.levels
  | .period t => s.tb[t].staged
  | .prescaler t => s.tb[t].prescaler.toNat
  | .tbState t => s.tb[t].state.code
  | .deadTime n => s.out[n].stagedDeadTime
  | .polarity n => s.out[n].polHi.bit + 2 * s.out[n].polLo.bit
  | .safeLevels n => s.out[n].safeHi.code + 4 * s.out[n].safeLo.code
  | .gate n => s.out[n].gate.value
  | .tripEnable n => s.tiu.enable[n].toNat
  | .ringMode n => s.rings[n].mode.code
  | .ringDepth n => s.rings[n].depth
  | .exceptionMask n => s.chn[n].mask.toNat
  | .stickyFlags n => s.chn[n].sticky.toNat
  | .channelState n => s.chn[n].state.code
  | .appliedDuty n => s.chn[n].duty
  | .faultCause n => causeCode s.chn[n].cause

/-- READ PARAMETER (R181). -/
def readParameter (number : Half) : Rule := fun _ s =>
  match paramOf number with
  | some p => doneWith s (leBytes 4 (s.paramValue p))
  | none => refuse .badArgument s

/-! ### Writes, each by the rule of its owner -/

/-- ATTENTION_MASK (R175). -/
def writeAttentionMask (v : Word) : Rule := fun _ s =>
  if v &&& 0xFFFFE000 ≠ 0 then refuse .reservedField s
  else doneWith { s with mge.mask := v.setWidth 13 }

/-- TRIP_FILTER (R140). -/
def writeTripFilter (v : Word) : Rule := fun _ s =>
  if v &&& 0xFFFFFFFC ≠ 0 then refuse .reservedField s
  else if v = 3 then refuse .badArgument s
  else doneWith { s with tiu.trip := s.tiu.trip.setCode (v.setWidth 2) }

/-- INPUT_FILTER_k (R140). -/
def writeInputFilter (k : Fin 8) (v : Word) : Rule := fun _ s =>
  if v &&& 0xFFFFFFFC ≠ 0 then refuse .reservedField s
  else doneWith { s with tiu.inputs := s.tiu.inputs.set k (s.tiu.inputs[k].setCode (v.setWidth 2)) }

/-- PERIOD (R117). -/
def writePeriod (t : Fin 2) (v : Word) : Rule := fun _ s =>
  if v &&& 0xFFFF0000 ≠ 0 then refuse .reservedField s
  else if v.toNat < 2 then refuse .badArgument s
  else doneWith (s.setTimebase t { s.tb[t] with staged := v.toNat })

/-- PRESCALER (R117). -/
def writePrescaler (t : Fin 2) (v : Word) : Rule := fun _ s =>
  if v &&& 0xFFFFFFFC ≠ 0 then refuse .reservedField s
  else if s.tb[t].state = .running then refuse .wrongState s
  else doneWith (s.setTimebase t { s.tb[t] with prescaler := v.setWidth 2 })

/-- DEAD_TIME (R130). -/
def writeDeadTime (n : Fin 6) (v : Word) : Rule := fun _ s =>
  if v &&& 0xFFFFFF00 ≠ 0 then refuse .reservedField s
  else doneWith (s.setOutput n { s.out[n] with stagedDeadTime := v.toNat })

/-- POLARITY (R131). -/
def writePolarity (n : Fin 6) (v : Word) : Rule := fun _ s =>
  if v &&& 0xFFFFFFFC ≠ 0 then refuse .reservedField s
  else if s.chn[n].state ≠ .disabled then refuse .wrongState s
  else doneWith (s.setOutput n
    { s.out[n] with polHi := polarityOf (v.getLsbD 0), polLo := polarityOf (v.getLsbD 1) })

/-- SAFE_LEVELS (R132). -/
def writeSafeLevels (n : Fin 6) (v : Word) : Rule := fun _ s =>
  if v &&& 0xFFFFFFF0 ≠ 0 then refuse .reservedField s
  else match safeLevelOf (v.toNat % 4), safeLevelOf (v.toNat / 4) with
    | some hi, some lo =>
      if hi = .active ∧ lo = .active then refuse .badArgument s
      else doneWith (s.setOutput n { s.out[n] with safeHi := hi, safeLo := lo })
    | _, _ => refuse .badArgument s

/-- The gate setting of a value without reserved bits (R127). -/
def gateOf (v : Word) : Option Gate :=
  if v.getLsbD 3 then some (.input (Fin.ofNat 8 v.toNat) (!v.getLsbD 4))
  else if v &&& 0x1F = 0 then some .none
  else none

/-- GATE (R127). -/
def writeGate (n : Fin 6) (v : Word) : Rule := fun _ s =>
  if v &&& 0xFFFFFFE0 ≠ 0 then refuse .reservedField s
  else match gateOf v with
    | some g => doneWith (s.setOutput n { s.out[n] with gate := g })
    | none => refuse .badArgument s

/-- The trip enable replaced; where that ends trip forcing the ages restart (R145, R128 (4)). That the order of this event and a tick
without an edge at the same moment shows at the pins when the dead time is 1 is the model's choice, as at CLEAR (log 21). -/
def State.setTripEnable (s : State) (n : Fin 6) (on : Bool) : State :=
  let s' := { s with tiu.enable := s.tiu.enable.set n on }
  if s.tripForced n && !on then s'.restartAges n else s'

/-- TRIP_ENABLE (R145). -/
def writeTripEnable (n : Fin 6) (v : Word) : Rule := fun _ s =>
  if v &&& 0xFFFFFFFE ≠ 0 then refuse .reservedField s
  else doneWith (s.setTripEnable n (v.getLsbD 0))

/-- RING_MODE (R99). -/
def writeRingMode (n : Fin 6) (v : Word) : Rule := fun _ s =>
  if v &&& 0xFFFFFF00 ≠ 0 then refuse .reservedField s
  else if 1 < v.toNat then refuse .badArgument s
  else if s.chn[n].state ≠ .disabled then refuse .wrongState s
  else doneWith (s.setRing n { s.rings[n] with mode := if v = 0 then .queued else .latest })

/-- RING_DEPTH (R99). -/
def writeRingDepth (n : Fin 6) (v : Word) : Rule := fun _ s =>
  if v &&& 0xFFFFFF00 ≠ 0 then refuse .reservedField s
  else if v.toNat < 1 ∨ 8 < v.toNat then refuse .badArgument s
  else if s.chn[n].state ≠ .disabled then refuse .wrongState s
  else doneWith (s.setRing n { s.rings[n] with depth := v.toNat })

/-- EXCEPTION_MASK (R110). -/
def writeExceptionMask (n : Fin 6) (v : Word) : Rule := fun _ s =>
  if v &&& 0xFFFFFFF0 ≠ 0 then refuse .reservedField s
  else doneWith (s.setChannel n { s.chn[n] with mask := .ofBits v })

/-- The owner's write of a parameter; READ_ONLY for RO and RO-volatile ones (R180, R182). -/
def Param.write (v : Word) : Param → Rule
  | .attentionMask => writeAttentionMask v
  | .tripFilter => writeTripFilter v
  | .inputFilter k => writeInputFilter k v
  | .period t => writePeriod t v
  | .prescaler t => writePrescaler t v
  | .deadTime n => writeDeadTime n v
  | .polarity n => writePolarity n v
  | .safeLevels n => writeSafeLevels n v
  | .gate n => writeGate n v
  | .tripEnable n => writeTripEnable n v
  | .ringMode n => writeRingMode n v
  | .ringDepth n => writeRingDepth n v
  | .exceptionMask n => writeExceptionMask n v
  | .stationAddress | .lineRate | .attentionFlags | .tripState | .inputLevels | .tbState _ | .stickyFlags _
  | .channelState _ | .appliedDuty _ | .faultCause _ => fun _ s => refuse .readOnly s

/-- WRITE PARAMETER (R182). -/
def writeParameter (number : Half) (value : Word) : Rule := fun o s =>
  match paramOf number with
  | some p => p.write value o s
  | none => refuse .badArgument s

end Sys2Proof.Machine
end

