-- ==== Sys2Proof/Machine/Management.lean ====
section
/-! DEFINITION. MGE (chapter 10): the commands that belong to it, the taking of held and broadcast telegrams (R168 to R172),
and the meaning of every management row.

A management row is the execution of its command in MGE (log 1): its rule is carried out, and for a held carrier the result,
the attention summary and the reply are recorded. CHARACTER_RECEIVED does the same work inside a whole telegram. -/

namespace Sys2Proof.Machine

/-! ### Commands of MGE itself -/

/-- IDENTIFY (R177): vendor 0D6BH, part 2406H, revision 03H, 6 channels, 64 map entries, 16 conversion records. -/
def identify : Rule := fun _ s => doneWith s [0x6B, 0x0D, 0x06, 0x24, 0x03, 6, 64, 16]

/-- The five status bytes of a timebase (R178). -/
def Timebase.statusBytes (b : Timebase) : List Byte :=
  BitVec.ofNat 8 b.state.code :: (leBytes 2 b.period ++ leBytes 2 b.counter)

/-- The six status bytes of a channel (R178, R194). -/
def State.channelStatusBytes (s : State) (n : Fin 6) : List Byte :=
  let c := s.chn[n]
  let r := s.rings[n]
  BitVec.ofNat 8 (c.state.code + 128 * c.saturated.toNat) :: (leBytes 2 c.duty
    ++ BitVec.ofNat 8 r.slots.length :: headBytes r.slots.head?)

/-- READ STATUS (R178). -/
def readStatus : Rule := fun _ s =>
  doneWith s (s.map.role.code :: (s.map.report.bytes ++ BitVec.ofNat 8 s.fwd.highWater ::
    (s.tb[0].statusBytes ++ s.tb[1].statusBytes ++ allChannels.flatMap s.channelStatusBytes)))

/-- READ COUNTERS (R179). -/
def readCounters : Rule := fun _ s => doneWith s (s.lrx.counters.toList.flatMap (leBytes 2))

/-- CLEAR COUNTERS (R179, R30). -/
def clearCounters : Rule := fun _ s =>
  doneWith { s with lrx.counters := Vector.replicate 6 0, fwd.highWater := s.level }

/-- ACKNOWLEDGE ATTENTION (R174). -/
def acknowledgeAttention (set : Half) : Rule := fun _ s =>
  if set &&& 0xE000 ≠ 0 then refuse .reservedField s
  else
    let flags := s.mge.flags &&& ~~~set.setWidth 13
    doneWith { s with mge.flags := flags } (leBytes 2 flags.toNat)

/-- RELEASE ADDRESS (R183). -/
def releaseAddress : Rule := fun _ s => doneWith { s with lrx.address := 0 }

/-- RESTART marks a restart as pending, its point to be fixed by the carrying end event; one already pending stands (R184). -/
def restart : Rule := fun _ s =>
  doneWith (if s.mge.restart = none then { s with mge.restart := some .carrier } else s)

/-- FWD fixes the restart point: the end of transmission of the newest character in the FIFO, else of the one TXO is sending,
else the execution itself (R40). -/
def State.fixRestartPoint (s : State) : State :=
  if s.mge.restart = some .carrier then
    let sending := match s.fwd.txo with
      | .idle => 0
      | .sending _ _ => 1
    { s with mge.restart := some (.after (s.level + sending)) }
  else s

/-! ### Taking a command (R168, R169, R171) -/

/-- Argument length, longest reply length, and broadcast permission of a command code (R169). -/
def commandShape : Nat → Option (Nat × Nat × Bool)
  | 0x01 => some (0, 8, false)
  | 0x02 => some (0, 52, false)
  | 0x03 => some (0, 12, false)
  | 0x04 => some (0, 0, false)
  | 0x05 => some (2, 2, false)
  | 0x10 => some (2, 4, false)
  | 0x11 => some (6, 0, false)
  | 0x20 => some (9, 0, false)
  | 0x21 => some (2, 8, false)
  | 0x22 => some (17, 0, false)
  | 0x23 => some (2, 16, false)
  | 0x24 => some (0, 2, true)
  | 0x25 => some (0, 0, false)
  | 0x30 => some (2, 1, true)
  | 0x31 => some (2, 1, true)
  | 0x32 => some (7, 4, false)
  | 0x33 => some (1, 1, true)
  | 0x40 => some (9, 0, false)
  | 0x41 => some (1, 0, false)
  | 0x42 => some (1, 0, false)
  | 0x43 => some (1, 3, false)
  | 0x50 => some (0, 0, true)
  | 0x51 => some (0, 0, true)
  | _ => none

/-- CHANNEL CONTROL by its action byte (R103, R192). -/
def channelAction (set action : Byte) : Rule :=
  match action.toNat with
  | 1 => enableChannels set
  | 2 => disableChannels set
  | 3 => clearFaultChannels set
  | 4 => clearFlagsChannels set
  | _ => fun _ s => refuse .badArgument s

/-- TIMEBASE CONTROL by its action byte (R115, R192). -/
def timebaseAction (set action : Byte) : Rule :=
  match action.toNat with
  | 1 => startTimebases set
  | 2 => stopTimebases set
  | _ => fun _ s => refuse .badArgument s

/-- TRIP CONTROL by its action byte (R142). -/
def tripAction (action : Byte) : Rule :=
  match action.toNat with
  | 1 => forceTrip
  | 2 => clearTrip
  | _ => fun _ s => refuse .badArgument s

/-- The rule of a command code over its argument bytes (R169, R194). -/
def commandRule (code : Nat) (args : List Byte) : Rule :=
  match code with
  | 0x01 => identify
  | 0x02 => readStatus
  | 0x03 => readCounters
  | 0x04 => clearCounters
  | 0x05 => acknowledgeAttention (halfAt args 0)
  | 0x10 => readParameter (halfAt args 0)
  | 0x11 => writeParameter (halfAt args 0) (wordAt args 2)
  | 0x20 => writeMapEntry (byteAt args 0) (BitVec.ofNat 64 (leNat ((args.drop 1).take 8)))
  | 0x21 => readMapEntry (byteAt args 0) (byteAt args 1)
  | 0x22 => writeConversionRecord (byteAt args 0) (BitVec.ofNat 128 (leNat ((args.drop 1).take 16)))
  | 0x23 => readConversionRecord (byteAt args 0) (byteAt args 1)
  | 0x24 => commit
  | 0x25 => discardStaged
  | 0x30 => channelAction (byteAt args 0) (byteAt args 1)
  | 0x31 => timebaseAction (byteAt args 0) (byteAt args 1)
  | 0x32 => pushSetpoint (byteAt args 0) (byteAt args 1) (byteAt args 2) (wordAt args 3)
  | 0x33 => tripAction (byteAt args 0)
  | 0x40 => loadSetup (byteAt args 0) (BitVec.ofNat 64 (leNat ((args.drop 1).take 8)))
  | 0x41 => loadStart (byteAt args 0)
  | 0x42 => loadCancel (byteAt args 0)
  | 0x43 => loadStatus (byteAt args 0)
  | 0x50 => releaseAddress
  | 0x51 => restart
  | _ => fun _ s => refuse .unknownCommand s

/-- A held MGMT payload executed: code, length test, arguments, rule (R168 (1) to (4), R169). -/
def executeHeld (payload : List Byte) (s : State) : Executed :=
  let code := (byteAt payload 0).toNat
  match commandShape code with
  | none => refuse .unknownCommand s
  | some (a, r, _) =>
    if a ≤ payload.length - 3 ∧ r ≤ payload.length - 3 then commandRule code ((payload.drop 3).take a) .command s
    else refuse .badLength s

/-- A broadcast MGMT payload executed at its good end, or ignored (R171). -/
def executeBroadcast (payload : List Byte) (s : State) : State :=
  let code := (byteAt payload 0).toNat
  match commandShape code with
  | some (a, _, true) =>
    if a ≤ payload.length - 3 then (commandRule code ((payload.drop 3).take a) .broadcast s).state else s
  | _ => s

/-- The result, the summary after the command's effects, and the reply are recorded (R168 (5), R176; log 2). -/
def Executed.record (r : Executed) : State :=
  { r.state with mge.answer := some (.mgmt r.result r.state.summary r.reply) }

/-! ### The management rows -/

/-- A management row under its carrier (R168, R171); `permitted` is the broadcast column of R169. -/
def carried (via : Via) (permitted : Bool) (rule : Rule) (s : State) : State :=
  match via with
  | .held => (rule .command s).record
  | .broadcast => if permitted then (rule .broadcast s).state else s

def execIdentify (via : Via) (s : State) : Host.Outcome State Fault Refusal := event (carried via false identify) s

def execReadStatus (via : Via) (s : State) : Host.Outcome State Fault Refusal := event (carried via false readStatus) s

def execReadCounters (via : Via) (s : State) : Host.Outcome State Fault Refusal := event (carried via false readCounters) s

def execClearCounters (via : Via) (s : State) : Host.Outcome State Fault Refusal := event (carried via false clearCounters) s

def execAcknowledgeAttention (via : Via) (flags : Half) (s : State) : Host.Outcome State Fault Refusal :=
  event (carried via false (acknowledgeAttention flags)) s

def execReadParameter (via : Via) (number : Half) (s : State) : Host.Outcome State Fault Refusal :=
  event (carried via false (readParameter number)) s

def execWriteParameter (via : Via) (number : Half) (value : Word) (s : State) : Host.Outcome State Fault Refusal :=
  event (carried via false (writeParameter number value)) s

def execWriteAttentionMask (via : Via) (value : Word) (s : State) : Host.Outcome State Fault Refusal :=
  event (carried via false (writeAttentionMask value)) s

def execWriteTripFilter (via : Via) (value : Word) (s : State) : Host.Outcome State Fault Refusal :=
  event (carried via false (writeTripFilter value)) s

def execWriteInputFilter (via : Via) (k : Fin 8) (value : Word) (s : State) : Host.Outcome State Fault Refusal :=
  event (carried via false (writeInputFilter k value)) s

def execWritePeriod (via : Via) (t : Fin 2) (value : Word) (s : State) : Host.Outcome State Fault Refusal :=
  event (carried via false (writePeriod t value)) s

def execWritePrescaler (via : Via) (t : Fin 2) (value : Word) (s : State) : Host.Outcome State Fault Refusal :=
  event (carried via false (writePrescaler t value)) s

def execWriteDeadTime (via : Via) (n : Fin 6) (value : Word) (s : State) : Host.Outcome State Fault Refusal :=
  event (carried via false (writeDeadTime n value)) s

def execWritePolarity (via : Via) (n : Fin 6) (value : Word) (s : State) : Host.Outcome State Fault Refusal :=
  event (carried via false (writePolarity n value)) s

def execWriteSafeLevels (via : Via) (n : Fin 6) (value : Word) (s : State) : Host.Outcome State Fault Refusal :=
  event (carried via false (writeSafeLevels n value)) s

def execWriteGate (via : Via) (n : Fin 6) (value : Word) (s : State) : Host.Outcome State Fault Refusal :=
  event (carried via false (writeGate n value)) s

def execWriteTripEnable (via : Via) (n : Fin 6) (value : Word) (s : State) : Host.Outcome State Fault Refusal :=
  event (carried via false (writeTripEnable n value)) s

def execWriteRingMode (via : Via) (n : Fin 6) (value : Word) (s : State) : Host.Outcome State Fault Refusal :=
  event (carried via false (writeRingMode n value)) s

def execWriteRingDepth (via : Via) (n : Fin 6) (value : Word) (s : State) : Host.Outcome State Fault Refusal :=
  event (carried via false (writeRingDepth n value)) s

def execWriteExceptionMask (via : Via) (n : Fin 6) (value : Word) (s : State) : Host.Outcome State Fault Refusal :=
  event (carried via false (writeExceptionMask n value)) s

def execWriteMapEntry (via : Via) (index : Byte) (record : BitVec 64) (s : State) : Host.Outcome State Fault Refusal :=
  event (carried via false (writeMapEntry index record)) s

def execReadMapEntry (via : Via) (index selector : Byte) (s : State) : Host.Outcome State Fault Refusal :=
  event (carried via false (readMapEntry index selector)) s

def execWriteConversionRecord (via : Via) (index : Byte) (record : BitVec 128) (s : State) :
    Host.Outcome State Fault Refusal :=
  event (carried via false (writeConversionRecord index record)) s

def execReadConversionRecord (via : Via) (index selector : Byte) (s : State) : Host.Outcome State Fault Refusal :=
  event (carried via false (readConversionRecord index selector)) s

def execCommit (via : Via) (s : State) : Host.Outcome State Fault Refusal := event (carried via true commit) s

def execDiscardStaged (via : Via) (s : State) : Host.Outcome State Fault Refusal := event (carried via false discardStaged) s

def execEnable (via : Via) (set : Byte) (s : State) : Host.Outcome State Fault Refusal :=
  event (carried via true (enableChannels set)) s

def execDisable (via : Via) (set : Byte) (s : State) : Host.Outcome State Fault Refusal :=
  event (carried via true (disableChannels set)) s

def execClearFault (via : Via) (set : Byte) (s : State) : Host.Outcome State Fault Refusal :=
  event (carried via true (clearFaultChannels set)) s

def execClearFlags (via : Via) (set : Byte) (s : State) : Host.Outcome State Fault Refusal :=
  event (carried via true (clearFlagsChannels set)) s

def execStart (via : Via) (set : Byte) (s : State) : Host.Outcome State Fault Refusal :=
  event (carried via true (startTimebases set)) s

def execStop (via : Via) (set : Byte) (s : State) : Host.Outcome State Fault Refusal :=
  event (carried via true (stopTimebases set)) s

def execPushSetpoint (via : Via) (channel format conversion : Byte) (value : Word) (s : State) :
    Host.Outcome State Fault Refusal :=
  event (carried via false (pushSetpoint channel format conversion value)) s

def execForce (via : Via) (s : State) : Host.Outcome State Fault Refusal := event (carried via true forceTrip) s

def execClear (via : Via) (s : State) : Host.Outcome State Fault Refusal := event (carried via true clearTrip) s

def execLoadSetup (via : Via) (channel : Byte) (descriptor : BitVec 64) (s : State) : Host.Outcome State Fault Refusal :=
  event (carried via false (loadSetup channel descriptor)) s

def execLoadStart (via : Via) (channel : Byte) (s : State) : Host.Outcome State Fault Refusal :=
  event (carried via false (loadStart channel)) s

def execLoadCancel (via : Via) (channel : Byte) (s : State) : Host.Outcome State Fault Refusal :=
  event (carried via false (loadCancel channel)) s

def execLoadStatus (via : Via) (channel : Byte) (s : State) : Host.Outcome State Fault Refusal :=
  event (carried via false (loadStatus channel)) s

def execReleaseAddress (via : Via) (s : State) : Host.Outcome State Fault Refusal :=
  event (carried via true releaseAddress) s

/-- RESTART: taken by its row alone, its point is fixed over the characters now in the FIFO (R40; log 8). -/
def execRestart (via : Via) (s : State) : Host.Outcome State Fault Refusal :=
  event (fun s => (carried via true restart s).fixRestartPoint) s

end Sys2Proof.Machine
end

