-- ==== Sys2Proof/Machine/DriveLine.lean ====
section
/-! DEFINITION. LRX and FWD (chapters 1 and 2): receiver, parser, treatments, forwarding, held telegrams, aborts, TXO. -/

namespace Sys2Proof.Machine

/-! ### Kinds, lengths and treatment (R4, R9) -/

/-- The kind, from the upper nibble of H0 (R4). -/
def kindOf (h0 : Byte) : Kind :=
  match h0.toNat / 16 with
  | 1 => .data
  | 2 => .mgmt
  | 3 => .assign
  | _ => .foreign

/-- The group, the lower nibble of H0 (R4). -/
def groupOf (h0 : Byte) : Byte := h0 &&& 0x0F

/-- The lengths accepted for each kind (R4). -/
def lengthAccepted (k : Kind) (len : Nat) : Bool :=
  match k with
  | .data => 1 ≤ len ∧ len ≤ 240
  | .mgmt => 4 ≤ len ∧ len ≤ 64
  | .assign => len = 2
  | .foreign => len ≤ 240

/-- The treatment decided at header completion (R9). -/
def treatmentOf (address h0 h1 : Byte) (len : Nat) : Treatment :=
  if lengthAccepted (kindOf h0) len = false then .foreign
  else match kindOf h0 with
    | .data => .data
    | .mgmt => if h1 = address ∧ address ≠ 0 then .held else if h1 = 0x7F then .broadcast else .passed
    | .assign => if address = 0 then .held else .passed
    | .foreign => .foreign

/-! ### Telegram start and abort (R7, R17, R26, R34, R35) -/

/-- The character is H0 of a new telegram (R7 (1), R26, R32). -/
def State.beginTelegram (s : State) (c : LineChar) : State :=
  { s with
    lrx.parser := .header c.data none
    lrx.acc := checkByte 0xFFFF c.data
    lrx.gap := some c.time
    fwd.state := .staging
    fwd.stage := [c]
    fwd.changed := false
    fwd.acc := 0xFFFF }

/-- FWD returns to IDLE; changed mark and accumulator go with the telegram (R25; log 15). -/
def State.closeForward (s : State) : State :=
  { s with fwd.state := .idle, fwd.stage := [], fwd.hold := [], fwd.changed := false, fwd.acc := 0xFFFF }

/-- FWD's part of an abort: a fragment in STAGING (R26 (3)), the removal of a waiting check character 1 in PASSING and CUT
(R34), the hold buffer emptied in HOLDING (R35). -/
def State.abortForward (s : State) : State :=
  match s.fwd.state with
  | .staging => (s.enterFifo s.fwd.stage).closeForward
  | .passing | .cut => State.closeForward { s with fwd.fifo := s.fwd.fifo.filter fun c => !c.wait }
  | .holding | .idle => s.closeForward

/-- The telegram in progress is aborted: gap timer stopped, parser to SKIP, every block drops it (R14 to R17). -/
def State.abortTelegram (s : State) (e : LineError) : State :=
  let s := s.abortForward.dropPlan.dropCaptures.countError e
  { s with lrx.parser := .skip, lrx.gap := none }

/-! ### Header completion (R8, R9, R26) -/

/-- FWD's part of header completion: the header stage goes to the hold buffer or to the FIFO (R26, R32). -/
def State.releaseHeader (s : State) (t : Treatment) (chars : List LineChar) : State :=
  match t with
  | .held => { s with fwd.state := .holding, fwd.stage := [], fwd.hold := chars }
  | .data | .broadcast | .passed | .foreign =>
    State.passChars
      { s with fwd.state := .passing, fwd.stage := [], fwd.acc := checkBytes s.fwd.acc (chars.map (·.data)) } chars

/-- MAP's and LCH's part for a DATA telegram. `before` is the state before the release: where the release met a full FIFO,
the free value says whether the snapshot sees the OVERRUN it counted (log 9). -/
def State.openData (before s : State) (chars : List LineChar) (h0 h1 : Byte) (len : Nat) : State :=
  let overran := !before.fits chars
  let seen := if overran && Config.snapshotFirst s.free then before else s
  let s := if overran then { s with free := s.free + 1 } else s
  (s.openPlan seen (groupOf h0) h1 len).openCaptures (groupOf h0) len

/-- H2 is taken: the header is complete (R8, R9, R13 (2)). -/
def State.completeHeader (s : State) (h0 h1 : Byte) (c : LineChar) : State :=
  let len := c.data.toNat
  let treatment := treatmentOf s.lrx.address h0 h1 len
  let t : Telegram := ⟨h0, h1, len, treatment, []⟩
  let s := if lengthAccepted (kindOf h0) len then s else s.countError .length
  let chars := s.fwd.stage ++ [c]
  let released := s.releaseHeader treatment chars
  let opened := if treatment = .data then State.openData s released chars h0 h1 len else released
  { opened with lrx.parser := if len = 0 then .check t none else .payload t 0 }

/-- A character of the telegram other than the check characters feeds the check, and each restarts the gap timer (R6, R15). -/
def State.feedCheck (s : State) (c : LineChar) : State :=
  { s with lrx.acc := checkByte s.lrx.acc c.data, lrx.gap := some c.time }

/-- H1 or H2 (R8). -/
def State.takeHeader (s : State) (h0 : Byte) (h1 : Option Byte) (c : LineChar) : State :=
  let s := s.feedCheck c
  match h1 with
  | none => { s with lrx.parser := .header h0 (some c.data), fwd.stage := s.fwd.stage ++ [c] }
  | some h1 => s.completeHeader h0 h1 c

/-! ### Payload (R10, R31, R32, R35) -/

/-- The character as it enters the FIFO: the produced byte in place of the inbound one, with the changed mark (R31, R32). -/
def State.substitute (s : State) (t : Telegram) (pos : Nat) (c : LineChar) : State :=
  match if t.treatment = .data then s.map.producedAt pos else none with
  | some b => State.passChars { s with fwd.changed := true, fwd.acc := checkByte s.fwd.acc b } [{ c with data := b }]
  | none => State.passChars { s with fwd.acc := checkByte s.fwd.acc c.data } [c]

/-- FWD's part of a payload character. -/
def State.forwardPayload (s : State) (t : Telegram) (pos : Nat) (c : LineChar) : State :=
  match s.fwd.state with
  | .passing => s.substitute t pos c
  | .holding => { s with fwd.hold := s.fwd.hold ++ [c] }
  | .idle | .staging | .cut => s

/-- A payload character (R10). -/
def State.takePayload (s : State) (t : Telegram) (pos : Nat) (c : LineChar) : State :=
  let s := (s.feedCheck c).forwardPayload t pos c
  let s := if t.treatment = .data then (s.collectByte pos c.data).captureByte pos c.data else s
  let t := if t.treatment = .broadcast then { t with heard := t.heard ++ [c.data] } else t
  { s with lrx.parser := if pos + 1 < t.len then .payload t (pos + 1) else .check t none }

/-! ### Check characters and the end (R11, R33, R36 to R39) -/

/-- Check character 1: with the wait mark in PASSING (R11, R28). -/
def State.takeCheck1 (s : State) (t : Telegram) (c : LineChar) : State :=
  let s := { s with lrx.parser := .check t (some c.data), lrx.gap := some c.time }
  match s.fwd.state with
  | .passing => s.passChars [{ c with wait := true }]
  | .holding => { s with fwd.hold := s.fwd.hold ++ [c] }
  | .idle | .staging | .cut => s

/-- The check bytes a telegram in PASSING leaves with (R33). -/
def Fwd.checkChoice (f : Fwd) (good : Bool) (first second : Byte) : Byte × Byte :=
  if f.changed then
    let v := if good then f.acc else ~~~f.acc
    (highByte v, lowByte v)
  else (first, second)

/-- The end of a telegram in PASSING: the waiting check character 1 takes its byte and loses its mark, check character 2
enters, subject to R29 (R33). -/
def State.endPassing (s : State) (good : Bool) (first : Byte) (c : LineChar) : State :=
  let choice := s.fwd.checkChoice good first c.data
  let released := s.fwd.fifo.map fun x => if x.wait then { x with data := choice.1, wait := false } else x
  State.closeForward (State.enterFifo { s with fwd.fifo := released } [{ c with data := choice.2 }])

/-- Bytes written over the characters from a place on; times and marker bits stay (R37 (1)). -/
def overwrite : Nat → List Byte → List LineChar → List LineChar
  | _, [], cs => cs
  | i, b :: bs, cs => overwrite (i + 1) bs (cs.modify i fun c => { c with data := b })

/-- The check value over all but the two check characters, written into them (R37 (2)). -/
def regenerate (cs : List LineChar) : List LineChar :=
  let n := cs.length - 2
  let v := checkBytes 0xFFFF ((cs.take n).map (·.data))
  overwrite n [highByte v, lowByte v] cs

/-- The payload bytes of a whole telegram. -/
def payloadOf (cs : List LineChar) : List Byte := ((cs.drop 3).take (cs.length - 5)).map (·.data)

/-- An ASSIGN offer is taken: untaken mark, an address from 1 to 126, and UNASSIGNED (R21 (3), R23). -/
def State.offerTaken (s : State) (mark offer : Byte) : Bool :=
  s.lrx.address = 0 ∧ mark = 0 ∧ 1 ≤ offer.toNat ∧ offer.toNat ≤ 126

/-- LRX takes or refuses an ASSIGN offer (R23, R37 (1); log 2). -/
def State.takeOffer (s : State) (mark offer : Byte) : State :=
  if s.offerTaken mark offer then { s with lrx.address := offer, mge.answer := some (.assign true) }
  else { s with mge.answer := some (.assign false) }

/-- The executor's work and the telegram as it then stands in the hold buffer (R37 (1), (2)). -/
def State.executeTelegram (s : State) (t : Telegram) : State × List LineChar :=
  let hold := s.fwd.hold
  let payload := payloadOf hold
  if kindOf t.h0 = .assign then
    let mark := byteAt payload 0
    let offer := byteAt payload 1
    (s.takeOffer mark offer, if s.offerTaken mark offer then regenerate (overwrite 3 [1] hold) else hold)
  else
    let r := executeHeld payload s
    (r.record, regenerate (overwrite 4 (r.result.code :: r.state.summary :: r.reply) hold))

/-- The end of a held telegram: room test, execution, append (R36 to R38). -/
def State.endHeld (s : State) (t : Telegram) (good : Bool) : State :=
  if s.fits s.fwd.hold = false then (s.countError .overrun).closeForward
  else if good then
    let r := s.executeTelegram t
    ((r.1.enterFifo r.2).closeForward).fixRestartPoint
  else (s.enterFifo s.fwd.hold).closeForward

/-- FWD's part of the end of a telegram (R25, R33, R36). -/
def State.endForward (s : State) (t : Telegram) (good : Bool) (first : Byte) (c : LineChar) : State :=
  match s.fwd.state with
  | .passing => s.endPassing good first c
  | .holding => State.endHeld { s with fwd.hold := s.fwd.hold ++ [c] } t good
  | .idle | .staging | .cut => s.closeForward

/-- MAP's and LCH's part of the end of a DATA telegram (R70, R71, R159). -/
def State.endData (s : State) (cycle : Byte) (good : Bool) : State :=
  if good then (s.processHolding cycle).loadsAtEnd else s.dropPlan.dropCaptures

/-- The end of a telegram at every block that hears it (R13 (5), R39). -/
def State.endTelegram (s : State) (t : Telegram) (good : Bool) (first : Byte) (c : LineChar) : State :=
  let s := s.endForward t good first c
  match t.treatment with
  | .data => s.endData t.h1 good
  | .broadcast => if good then (executeBroadcast t.heard s).fixRestartPoint else s
  | .held | .passed | .foreign => s

/-- Check character 2: the check decided, the end announced (R6, R11). -/
def State.takeCheck2 (s : State) (t : Telegram) (first : Byte) (c : LineChar) : State :=
  let good := first = highByte s.lrx.acc && c.data = lowByte s.lrx.acc
  let s := { s with lrx.parser := .idle, lrx.gap := none }
  let s := if good then s else s.countError .crc
  s.endTelegram t good first c

/-! ### The parser (R7 to R16) -/

/-- A character inside a telegram: a framing error aborts it, a header character truncates it, else `take` takes it (R14, R16). -/
def State.inside (s : State) (c : LineChar) (good : Bool) (take : State) : State :=
  if good = false then s.abortTelegram .framing
  else if c.marker then (s.abortTelegram .truncated).beginTelegram c
  else take

/-- The parser takes one character (R7 to R16). -/
def State.parse (s : State) (c : LineChar) (good : Bool) : State :=
  match s.lrx.parser with
  | .idle =>
    if c.marker then
      if good then s.beginTelegram c else { s.countError .framing with lrx.parser := .skip }
    else if good then s.enterFifo [c] else s
  | .skip =>
    if c.marker then if good then s.beginTelegram c else s.countError .framing
    else s
  | .header h0 h1 => s.inside c good (s.takeHeader h0 h1 c)
  | .payload t pos => s.inside c good (s.takePayload t pos c)
  | .check t none => s.inside c good (s.takeCheck1 t c)
  | .check t (some first) => s.inside c good (s.takeCheck2 t first c)

/-- CHARACTER_RECEIVED: the stop-bit sample of a character in RECEIVING (R1, R2; log 3). -/
def execCharacterReceived (data : Byte) (marker stop : Bool) (time : Nat) (s : State) :
    Host.Outcome State Fault Refusal :=
  event (fun s =>
    if s.lrx.rx = .receiving true then
      State.parse { s with lrx.rx := if stop then .ready else .waitIdle, pins.rxi := stop } ⟨data, marker, time, false⟩ stop
    else s) s

/-! ### The other receiver events (R2, R15) -/

/-- LINE_IDLE (R2). -/
def execLineIdle (s : State) : Host.Outcome State Fault Refusal :=
  event (fun s => if s.lrx.rx = .waitIdle then { s with lrx.rx := .ready, pins.rxi := true } else s) s

/-- START_BIT_EDGE (R1, R2). -/
def execStartBitEdge (s : State) : Host.Outcome State Fault Refusal :=
  event (fun s => if s.lrx.rx = .ready then { s with lrx.rx := .receiving false, pins.rxi := false } else s) s

/-- START_BIT_SAMPLE: 1 is a false start, which leaves the gap timer running; 0 confirms the start bit and stops it (R2, R15). -/
def execStartBitSample (level : Bool) (s : State) : Host.Outcome State Fault Refusal :=
  event (fun s =>
    if s.lrx.rx = .receiving false then
      if level then { s with lrx.rx := .ready, pins.rxi := true }
      else { s with lrx.rx := .receiving true, lrx.gap := none, pins.rxi := false }
    else s) s

/-- The gap timer has run for 24 bit times (R15). -/
def State.gapExpired (s : State) (time : Nat) : Bool :=
  s.lrx.gap.any fun started => started + 24 * bitClocks s.lrx.rate ≤ time

/-- GAP_TIMEOUT (R15, R17). -/
def execGapTimeout (time : Nat) (s : State) : Host.Outcome State Fault Refusal :=
  event (fun s => if s.gapExpired time then s.abortTelegram .gap else s) s

/-- ASSIGN: a held ASSIGN telegram handed to LRX (R23, R37 (1); log 1). With an address held the telegram passes through (R22). -/
def execAssign (mark offer : Byte) (s : State) : Host.Outcome State Fault Refusal :=
  event (fun s => if s.lrx.address = 0 then s.takeOffer mark offer else s) s

/-! ### TXO (R28) -/

/-- The head character meets both conditions of R28 at a time. -/
def State.eligible (s : State) (c : LineChar) (time : Nat) : Bool :=
  c.wait = false ∧ c.time + 2 * charClocks s.lrx.rate ≤ time

/-- TXO in IDLE begins to send an eligible head character; it leaves the FIFO (R27, R28). Nothing is begun once the restart
point is reached (R40). -/
def State.beginSending (s : State) (time : Nat) : State :=
  match s.fwd.txo, s.fwd.fifo with
  | .idle, c :: rest =>
    if s.eligible c time ∧ s.mge.restart ≠ some (.after 0) then
      { s with fwd.fifo := rest, fwd.txo := .sending c time }
    else s
  | _, _ => s

/-- TRANSMIT_CHARACTER (R28). -/
def execTransmitCharacter (time : Nat) (s : State) : Host.Outcome State Fault Refusal :=
  event (fun s => s.beginSending time) s

/-- One transmission fewer before the restart point (R40). -/
def RestartPoint.sent : RestartPoint → RestartPoint
  | .carrier => .carrier
  | .after n => .after (n - 1)

/-- CHARACTER_SENT: after 11 bit times TXO returns to IDLE and tests the new head at once (R28, R40). -/
def execCharacterSent (time : Nat) (s : State) : Host.Outcome State Fault Refusal :=
  event (fun s =>
    match s.fwd.txo with
    | .sending _ since =>
      if since + charClocks s.lrx.rate ≤ time then
        State.beginSending { s with fwd.txo := .idle, mge.restart := s.mge.restart.map (·.sent) } time
      else s
    | .idle => s) s

end Sys2Proof.Machine
end

