-- ==== Sys2Proof/Machine/Resets.lean ====
section
/-! DEFINITION. The two resets (10 §10.8, §10.9): RSTn and RESTART. -/

namespace Sys2Proof.Machine

/-- Every block at its reset values with this line rate; the queue, the free-value counter and the pins stand outside (R187, R188). -/
def State.resetWith (s : State) (rate : BitVec 2) : State :=
  { State.reset with lrx := .reset rate, pins := s.pins, free := s.free, pending := s.pending }

/-- RSTN_FALL: TXO to 1, the outputs to high impedance (by `pins.rstn`), FIFO, header stage and hold buffer emptied, a pending
RESTART dropped with the rest of MGE's state (R41, R135, R186, R187; log 11). -/
def execRstnFall (s : State) : Host.Outcome State Fault Refusal :=
  .next { s with
    fwd.fifo := []
    fwd.stage := []
    fwd.hold := []
    fwd.txo := .idle
    mge := .reset
    pins.rstn := false }

/-- RSTN_RELEASE: the straps sampled, every block at its pin-reset values (R3, R187). -/
def execRstnRelease (straps : BitVec 2) (s : State) : Host.Outcome State Fault Refusal :=
  .next { s.resetWith straps with pins.rstn := true }

/-- RESTART takes effect: reset values, with the station address and the line rate kept (R185, R188). -/
def State.restarted (s : State) : State :=
  { s.resetWith s.lrx.rate with lrx.address := s.lrx.address }

/-- RESTART_TAKES_EFFECT: at the restart point (R40, R185; logs 3, 7). -/
def execRestartTakesEffect (s : State) : Host.Outcome State Fault Refusal :=
  event (fun s => if s.mge.restart = some (.after 0) then s.restarted else s) s

end Sys2Proof.Machine
end

