-- ==== Sys2Proof/Machine/Dispatch.lean ====
section
/-! DEFINITION. One arm for each command. -/

namespace Sys2Proof.Machine

/-- The effect of a command on everything but the queue. -/
def exec (i : Instr) (s : State) : Host.Outcome State Fault Refusal :=
  match i with
  | .rstnFall => Sys2Proof.Machine.execRstnFall s
  | .rstnRelease straps => Sys2Proof.Machine.execRstnRelease straps s
  | .characterReceived data marker stop time => Sys2Proof.Machine.execCharacterReceived data marker stop time s
  | .gapTimeout time => Sys2Proof.Machine.execGapTimeout time s
  | .transmitCharacter time => Sys2Proof.Machine.execTransmitCharacter time s
  | .assign mark offer => Sys2Proof.Machine.execAssign mark offer s
  | .periodBoundary t => Sys2Proof.Machine.execPeriodBoundary t s
  | .dutyMatch n => Sys2Proof.Machine.execDutyMatch n s
  | .deadTimeExpiry n side => Sys2Proof.Machine.execDeadTimeExpiry n side s
  | .filteredLevelChange line => Sys2Proof.Machine.execFilteredLevelChange line s
  | .restartTakesEffect => Sys2Proof.Machine.execRestartTakesEffect s
  | .identify via => Sys2Proof.Machine.execIdentify via s
  | .readStatus via => Sys2Proof.Machine.execReadStatus via s
  | .readCounters via => Sys2Proof.Machine.execReadCounters via s
  | .clearCounters via => Sys2Proof.Machine.execClearCounters via s
  | .acknowledgeAttention via flags => Sys2Proof.Machine.execAcknowledgeAttention via flags s
  | .readParameter via number => Sys2Proof.Machine.execReadParameter via number s
  | .writeParameter via number value => Sys2Proof.Machine.execWriteParameter via number value s
  | .writeAttentionMask via value => Sys2Proof.Machine.execWriteAttentionMask via value s
  | .writeTripFilter via value => Sys2Proof.Machine.execWriteTripFilter via value s
  | .writeInputFilter via k value => Sys2Proof.Machine.execWriteInputFilter via k value s
  | .writePeriod via t value => Sys2Proof.Machine.execWritePeriod via t value s
  | .writePrescaler via t value => Sys2Proof.Machine.execWritePrescaler via t value s
  | .writeDeadTime via n value => Sys2Proof.Machine.execWriteDeadTime via n value s
  | .writePolarity via n value => Sys2Proof.Machine.execWritePolarity via n value s
  | .writeSafeLevels via n value => Sys2Proof.Machine.execWriteSafeLevels via n value s
  | .writeGate via n value => Sys2Proof.Machine.execWriteGate via n value s
  | .writeTripEnable via n value => Sys2Proof.Machine.execWriteTripEnable via n value s
  | .writeRingMode via n value => Sys2Proof.Machine.execWriteRingMode via n value s
  | .writeRingDepth via n value => Sys2Proof.Machine.execWriteRingDepth via n value s
  | .writeExceptionMask via n value => Sys2Proof.Machine.execWriteExceptionMask via n value s
  | .writeMapEntry via index record => Sys2Proof.Machine.execWriteMapEntry via index record s
  | .readMapEntry via index selector => Sys2Proof.Machine.execReadMapEntry via index selector s
  | .writeConversionRecord via index record => Sys2Proof.Machine.execWriteConversionRecord via index record s
  | .readConversionRecord via index selector => Sys2Proof.Machine.execReadConversionRecord via index selector s
  | .commit via => Sys2Proof.Machine.execCommit via s
  | .discardStaged via => Sys2Proof.Machine.execDiscardStaged via s
  | .enable via set => Sys2Proof.Machine.execEnable via set s
  | .disable via set => Sys2Proof.Machine.execDisable via set s
  | .clearFault via set => Sys2Proof.Machine.execClearFault via set s
  | .clearFlags via set => Sys2Proof.Machine.execClearFlags via set s
  | .start via set => Sys2Proof.Machine.execStart via set s
  | .stop via set => Sys2Proof.Machine.execStop via set s
  | .pushSetpoint via channel format conversion value => Sys2Proof.Machine.execPushSetpoint via channel format conversion value s
  | .force via => Sys2Proof.Machine.execForce via s
  | .clear via => Sys2Proof.Machine.execClear via s
  | .loadSetup via channel descriptor => Sys2Proof.Machine.execLoadSetup via channel descriptor s
  | .loadStart via channel => Sys2Proof.Machine.execLoadStart via channel s
  | .loadCancel via channel => Sys2Proof.Machine.execLoadCancel via channel s
  | .loadStatus via channel => Sys2Proof.Machine.execLoadStatus via channel s
  | .releaseAddress via => Sys2Proof.Machine.execReleaseAddress via s
  | .restart via => Sys2Proof.Machine.execRestart via s
  | .lineIdle => Sys2Proof.Machine.execLineIdle s
  | .startBitEdge => Sys2Proof.Machine.execStartBitEdge s
  | .startBitSample level => Sys2Proof.Machine.execStartBitSample level s
  | .characterSent time => Sys2Proof.Machine.execCharacterSent time s
  | .timebaseTick t => Sys2Proof.Machine.execTimebaseTick t s
  | .sampleInstant tripn inputs => Sys2Proof.Machine.execSampleInstant tripn inputs s

end Sys2Proof.Machine
end

