-- ==== Sys2Proof/Machine/Pins.lean ====
section
/-! DEFINITION. The pin levels of the outputs (07 §7.4, §7.5): polarity, safe levels, R133, and the
levels between two events of one moment (R144). -/

namespace Sys2Proof.Machine

/-- A pin at 0, at 1, or in high impedance. -/
inductive PinLevel where
  | low
  | high
  | highZ
  deriving DecidableEq, Repr

/-- The pin level of a logical level (R131). -/
def Polarity.level : Polarity → Bool → PinLevel
  | .activeHigh, true => .high
  | .activeHigh, false => .low
  | .activeLow, true => .low
  | .activeLow, false => .high

/-- The pin level of a forced output (R132). -/
def SafeLevel.level (p : Polarity) : SafeLevel → PinLevel
  | .inactive => p.level false
  | .active => p.level true
  | .float => .highZ

def Output.polarity (o : Output) : Side → Polarity
  | .hi => o.polHi
  | .lo => o.polLo

def Output.safeLevel (o : Output) : Side → SafeLevel
  | .hi => o.safeHi
  | .lo => o.safeLo

/-- The level at a pin whose driven level is given: high impedance while RSTn is low (R135), else R133. -/
def State.pinWith (s : State) (n : Fin 6) (side : Side) (driven : Bool) : PinLevel :=
  if s.pins.rstn = false then .highZ
  else if s.forced n then (s.out[n].safeLevel side).level (s.out[n].polarity side)
  else (s.out[n].polarity side).level driven

/-- The level at HIn (R133). -/
def State.pinHi (s : State) (n : Fin 6) : PinLevel := s.pinWith n .hi (s.logical n .hi)

/-- The level at LOn (R133). -/
def State.pinLo (s : State) (n : Fin 6) : PinLevel := s.pinWith n .lo (s.logical n .lo)

/-- The level at a pin between a CLEAR and an assertion of the filtered trip input that falls at the same moment, in the state after the
CLEAR: no driven level of a channel whose trip forcing the CLEAR ended is active before a later event (R144, last sentence). A queue
tells the order of two events and not their moments, so this is a reading of the state beside that of R133; where the two differ, with
a dead time of 0, the rules disagree and both readings are kept (log 20). -/
def State.pinBetween (s : State) (n : Fin 6) (side : Side) : PinLevel :=
  s.pinWith n side (s.logical n side && !s.out[n].afterTrip)

end Sys2Proof.Machine
end

