-- ==== Sys2Proof/Safety.lean ====
section
/-! DEFINITION. What counts as a sound state and a safe output, in the terms the claims use. -/

namespace Sys2Proof.Machine

/-- RSTn is high: the part takes events (R187). -/
def State.released (s : State) : Prop := s.pins.rstn = true

/-- The state with the answer of a held management command recorded, nothing else changed (R168 (5), R176; log 2). -/
def State.answered (s : State) (result : Result) (reply : List Byte := []) : State :=
  { s with mge := { s.mge with answer := some (.mgmt result s.summary reply) } }

/-- A channel record with its ring, outputs and timebase: R87, R98, R102, R107, R121, R128, R132. -/
structure ChannelSound (c : Channel) (r : Ring) (o : Output) (b : Timebase) : Prop where
  duty_le : c.duty ≤ b.period
  duty_zero : c.state ≠ .running → c.duty = 0
  saturated_running : c.state ≠ .running → c.saturated = false
  cause_fault : c.cause.isSome = true ↔ c.state = .fault
  depth_range : 1 ≤ r.depth ∧ r.depth ≤ 8
  queued_fill : r.mode = .queued → r.slots.length ≤ r.depth
  latest_fill : r.mode = .latest → r.slots.length ≤ 1
  ring_empty : c.state = .disabled ∨ c.state = .fault → r.slots = []
  dead_time : c.deadTime ≤ 255 ∧ o.stagedDeadTime ≤ 255
  ages : o.ageHi ≤ 255 ∧ o.ageLo ≤ 255
  after_trip : o.afterTrip = true → o.ageHi = 0 ∧ o.ageLo = 0
  safe_levels : ¬(o.safeHi = .active ∧ o.safeLo = .active)

/-- A timebase record (R113). -/
structure TimebaseSound (b : Timebase) : Prop where
  period : 2 ≤ b.period ∧ b.period ≤ 65535
  staged : 2 ≤ b.staged ∧ b.staged ≤ 65535
  counter : b.counter < b.period

/-- The trip and input unit (R139, R141, R149): run counts below their lengths, an accepted trip filter length, and the
latch set whenever the filtered trip input is asserted. -/
structure TiuSound (u : Tiu) : Prop where
  trip_run : u.trip.run < filterLength u.trip.code
  trip_code : u.trip.code ≠ 3
  input_run : ∀ k : Fin 8, u.inputs[k].run < filterLength u.inputs[k].code
  latch : u.trip.level = false → u.latch = true

/-- The line side (R19, R21, R27, R30). -/
structure LineSound (l : Lrx) (f : Fwd) : Prop where
  address : l.address.toNat ≤ 126
  counters : ∀ i : Fin 6, l.counters[i] ≤ 65535
  level : f.fifo.length ≤ Config.fifoCapacity
  high_water : f.fifo.length ≤ f.highWater ∧ f.highWater ≤ Config.fifoCapacity

/-- The invariant of the part. -/
structure Inv (s : State) : Prop where
  channels : ∀ n : Fin 6, ChannelSound s.chn[n] s.rings[n] s.out[n] s.tb[timebaseOf n]
  timebases : ∀ t : Fin 2, TimebaseSound s.tb[t]
  tiu : TiuSound s.tiu
  line : LineSound s.lrx s.fwd

/-- Every used entry of the active map bank passes all commit checks against the active conversion bank (R54). -/
def ActiveValid (s : State) : Prop := validateFrom s.map.activeConv [] 0 s.map.activeMap.toList = none

/-- The two pins of a channel are not both at the active level of their polarity (R133). -/
def State.pairSafe (s : State) (n : Fin 6) : Prop :=
  ¬(s.pinHi n = s.out[n].polHi.level true ∧ s.pinLo n = s.out[n].polLo.level true)

/-- What a boundary makes of one channel and its ring under the new period P (the tables of R119 to R121, with R107, R111). -/
structure BoundaryOutcome (s u : State) (n : Fin 6) (P : Nat) : Prop where
  resting : s.chn[n].state = .disabled ∨ s.chn[n].state = .fault →
    u.chn[n] = { s.chn[n] with deadTime := s.out[n].stagedDeadTime } ∧ u.rings[n] = s.rings[n]
  pending : ∀ e, s.chn[n].state = .armed ∨ s.chn[n].state = .running → s.chn[n].firstPending = some e →
    u.chn[n] = { s.chn[n] with
      deadTime := s.out[n].stagedDeadTime, state := .fault, cause := some e, duty := 0, code := .within, saturated := false }
    ∧ u.rings[n] = { s.rings[n] with slots := [] }
  popped : ∀ slot rest, s.chn[n].state = .armed ∨ s.chn[n].state = .running → s.chn[n].firstPending = none →
    s.rings[n].slots = slot :: rest →
    let candidate : Int := slot.duty.getD s.chn[n].duty
    u.rings[n] = { s.rings[n] with slots := rest } ∧
    u.chn[n] = { s.chn[n] with
      deadTime := s.out[n].stagedDeadTime
      state := .running
      duty := if candidate < 0 then 0 else if P < candidate then P else candidate.toNat
      code := slot.code
      saturated := decide (candidate < 0 ∨ P < candidate) }
  waiting : s.chn[n].state = .armed → s.chn[n].firstPending = none → s.rings[n].slots = [] →
    u.chn[n] = { s.chn[n] with deadTime := s.out[n].stagedDeadTime } ∧ u.rings[n] = s.rings[n]
  repeated : s.chn[n].state = .running → s.chn[n].firstPending = none → s.rings[n].slots = [] →
    s.chn[n].mask.stale = true →
    u.rings[n] = s.rings[n] ∧
    u.chn[n] = { s.chn[n] with
      deadTime := s.out[n].stagedDeadTime
      sticky := { s.chn[n].sticky with stale := true }
      duty := min s.chn[n].duty P
      saturated := decide (P < s.chn[n].duty) }
  stale : s.chn[n].state = .running → s.chn[n].firstPending = none → s.rings[n].slots = [] →
    s.chn[n].mask.stale = false →
    u.rings[n] = s.rings[n] ∧
    u.chn[n] = { s.chn[n] with
      deadTime := s.out[n].stagedDeadTime
      sticky := { s.chn[n].sticky with stale := true }
      state := .fault, cause := some .stale, duty := 0, code := .within, saturated := false }


/-! ### Boundaries -/

/-- A channel outside FAULT before is in FAULT after: what sets its attention flag at a boundary (R107, R173). -/
def faultedBetween (s u : State) (i : Nat) : Bool :=
  decide (∃ n : Fin 6, n.val = i ∧ s.chn[n].state ≠ .fault ∧ u.chn[n].state = .fault)

/-- The channel entered RUNNING, which restarts its ages (R128 (2)). -/
def enteredRunning (s u : State) (n : Fin 6) : Prop := s.chn[n].state ≠ .running ∧ u.chn[n].state = .running

/-- What the boundaries of the selected timebases leave, ages apart: their periods, their channels and rings, the CH_FAULT flags,
and every other block as it was (R118 to R121). -/
structure BoundaryWork (s u : State) (sel : Fin 2 → Bool) : Prop where
  started : ∀ t : Fin 2, sel t = true →
    u.tb[t] = { s.tb[t] with state := .running, period := s.tb[t].staged, counter := 0 }
  others : ∀ t : Fin 2, sel t = false → u.tb[t] = s.tb[t]
  channels : ∀ n : Fin 6, sel (timebaseOf n) = true → BoundaryOutcome s u n s.tb[timebaseOf n].staged
  untouched : ∀ n : Fin 6, sel (timebaseOf n) = false → u.chn[n] = s.chn[n] ∧ u.rings[n] = s.rings[n] ∧ u.out[n] = s.out[n]
  flags : ∀ i, i < 13 → u.mge.flags.getLsbD i = (s.mge.flags.getLsbD i || faultedBetween s u i)
  mge : u.mge = { s.mge with flags := u.mge.flags }
  frame : u.lrx = s.lrx ∧ u.fwd = s.fwd ∧ u.map = s.map ∧ u.tiu = s.tiu ∧ u.lch = s.lch ∧ u.pins = s.pins ∧ u.free = s.free
    ∧ u.pending = s.pending

/-! ### Tables -/

/-- The entry passes the field-level check as it reads back, and is then stored as it stands (R46, R191). -/
def MapEntry.fieldValid (e : MapEntry) : Prop := decodeMapEntry (BitVec.ofNat 64 (leNat e.bytes)) = .ok e

/-- The record passes the field-level check as it reads back, and is then stored as it stands (R47, R191). -/
def ConvRecord.fieldValid (c : ConvRecord) : Prop := decodeConvRecord (BitVec.ofNat 128 (leNat c.bytes)) = .ok c

/-- All four banks hold records that pass their field-level checks, and the active banks pass every commit check (R46, R47, R54). -/
structure BanksSound (s : State) : Prop where
  mapA : ∀ i : Fin 64, s.map.mapA[i].fieldValid
  mapB : ∀ i : Fin 64, s.map.mapB[i].fieldValid
  convA : ∀ i : Fin 16, s.map.convA[i].fieldValid
  convB : ∀ i : Fin 16, s.map.convB[i].fieldValid
  active : ActiveValid s

/-! ### Load channels (R151, R152, R155 to R158, R161) -/

structure LoadSound (k : Fin 2) (l : LoadChannel) : Prop where
  idle : l.descriptor = none ↔ l.state = .idle
  error : l.error ≠ .none ↔ l.state = .terminated
  descriptor : ∀ d, l.descriptor = some d → d.valid k = true ∧ d.first ≤ l.next ∧ l.next ≤ d.limit
  unfinished : ∀ d, l.descriptor = some d → l.state = .ready ∨ l.state = .active ∨ l.state = .waiting → l.next < d.limit
  complete : ∀ d, l.descriptor = some d → l.state = .complete → l.next = d.limit

/-- Both load channel records; LC0 is never WAITING, a WAITING LC1 waits for an ACTIVE LC0 with chain yes, and two ACTIVE
load channels share no record. -/
structure LoadsSound (s : State) : Prop where
  each : ∀ k : Fin 2, LoadSound k s.lch[k]
  first : s.lch[0].state ≠ .waiting
  chain : s.lch[1].state = .waiting → s.chainingLc0 = true
  apart : ∀ d e, s.lch[0].descriptor = some d → s.lch[1].descriptor = some e → s.lch[0].state = .active →
    s.lch[1].state = .active → d.target = e.target → d.limit ≤ e.first ∨ e.limit ≤ d.first

/-! ### The telegram in progress (R25, R35, R60, R67, R69) -/

/-- No DATA telegram is in progress: no plan, no snapshot, no pending write, no capture. -/
structure NoData (s : State) : Prop where
  plan : s.map.plan = none
  snapshot : s.map.snapshot = none
  holding : s.map.holding = []
  captures : ∀ k : Fin 2, s.lch[k].capture = none

/-- After the header, with `pos` payload characters and `checks` check characters taken: where the telegram's characters are,
and the raw bytes collected so far. -/
structure Carried (s : State) (t : Telegram) (pos checks : Nat) : Prop where
  stage : s.fwd.stage = []
  unmarked : ∀ c ∈ s.fwd.hold, c.wait = false
  held : t.treatment = .held → s.fwd.state = .holding ∧ s.fwd.hold.length = 3 + pos + checks ∧ t.len ≤ 64
  passed : t.treatment ≠ .held → (s.fwd.state = .passing ∨ s.fwd.state = .cut) ∧ s.fwd.hold = []
  data : t.treatment = .data → s.map.plan.isSome = true ∧ s.map.snapshot.isSome = true ∧
    ∀ w ∈ s.map.holding, w.offset.toNat + w.width.toNat ≤ t.len ∧ w.raw.length = min (pos - w.offset.toNat) w.width.toNat
  other : t.treatment ≠ .data → NoData s

/-- Only a check character 1 of the telegram in progress, in PASSING, carries the wait mark (R28). -/
def waitsOnlyIf (s : State) (allowed : Prop) : Prop := ∀ c ∈ s.fwd.fifo, c.wait = true → allowed

/-- The blocks agree on the telegram that LRX is parsing. -/
def TelegramSound (s : State) : Prop :=
  match s.lrx.parser with
  | .idle | .skip =>
    s.fwd.state = .idle ∧ s.fwd.stage = [] ∧ s.fwd.hold = [] ∧ s.lrx.gap = none ∧ NoData s ∧ waitsOnlyIf s False
  | .header _ h1 =>
    s.fwd.state = .staging ∧ s.fwd.stage.length = (if h1.isSome then 2 else 1) ∧ (∀ c ∈ s.fwd.stage, c.wait = false)
      ∧ s.fwd.hold = [] ∧ NoData s ∧ waitsOnlyIf s False
  | .payload t pos => pos < t.len ∧ Carried s t pos 0 ∧ waitsOnlyIf s False
  | .check t first =>
    Carried s t t.len (if first.isSome then 1 else 0) ∧ waitsOnlyIf s (first.isSome = true ∧ s.fwd.state = .passing)

/-! ### Values after a reset -/

/-- Every block at the values the reset tables give (R24, R42, R66, R101, R123, R124, R136, R150, R167, R188), with this line rate
and station address; pins, free-value counter and queue from `s`. -/
def State.atResetValues (s : State) (rate : BitVec 2) (address : Byte) : State where
  lrx := { rx := .waitIdle, rate := rate, parser := .idle, gap := none, acc := 0xFFFF, counters := Vector.replicate 6 0,
           address := address }
  fwd := { state := .idle, stage := [], fifo := [], hold := [], txo := .idle, changed := false, acc := 0xFFFF, highWater := 0 }
  map := { mapA := Vector.replicate 64 ⟨false, .consume, .little, 0, .unsigned, 0, 0, 0, 0, 0⟩
           mapB := Vector.replicate 64 ⟨false, .consume, .little, 0, .unsigned, 0, 0, 0, 0, 0⟩
           convA := Vector.replicate 16 ⟨false, .hold, 0, 0, 0, 0, 0⟩
           convB := Vector.replicate 16 ⟨false, .hold, 0, 0, 0, 0, 0⟩
           role := .a, plan := none, snapshot := none, holding := [], lastCycle := 0, report := .none }
  rings := Vector.replicate 6 { slots := [], mode := .queued, depth := 4 }
  chn := Vector.replicate 6
    { state := .disabled, mask := ⟨true, true, true, true⟩, sticky := ⟨false, false, false, false⟩, cause := none, duty := 0,
      code := .within, saturated := false, deadTime := 48 }
  tb := Vector.replicate 2 { state := .stopped, prescaler := 0, period := 4800, staged := 4800, counter := 0 }
  out := Vector.replicate 6
    { gate := .none, stagedDeadTime := 48, ageHi := 0, ageLo := 0, polHi := .activeHigh, polLo := .activeHigh,
      safeHi := .inactive, safeLo := .inactive, afterTrip := false }
  tiu := { trip := ⟨true, 1, 0⟩, inputs := Vector.replicate 8 ⟨false, 0, 0⟩, latch := false, enable := Vector.replicate 6 true }
  lch := Vector.replicate 2 { descriptor := none, state := .idle, next := 0, error := .none, capture := none }
  mge := { flags := 0, mask := 0x1FFF, restart := none, answer := none }
  pins := s.pins
  free := s.free
  pending := s.pending

/-! ### Telegrams and rows -/

/-- The state with the stop-bit sample of a character taken (R2). -/
def State.afterStopBit (s : State) (stop : Bool) : State :=
  { s with lrx.rx := if stop then .ready else .waitIdle, pins.rxi := stop }

/-- The management row that a held payload spells by its command code and argument bytes (R169, R192, R194). -/
def heldRow (payload : List Byte) : Option Instr :=
  let a := payload.drop 3
  match (byteAt payload 0).toNat with
  | 0x01 => some (.identify .held)
  | 0x02 => some (.readStatus .held)
  | 0x03 => some (.readCounters .held)
  | 0x04 => some (.clearCounters .held)
  | 0x05 => some (.acknowledgeAttention .held (halfAt a 0))
  | 0x10 => some (.readParameter .held (halfAt a 0))
  | 0x11 => some (.writeParameter .held (halfAt a 0) (wordAt a 2))
  | 0x20 => some (.writeMapEntry .held (byteAt a 0) (BitVec.ofNat 64 (leNat ((a.drop 1).take 8))))
  | 0x21 => some (.readMapEntry .held (byteAt a 0) (byteAt a 1))
  | 0x22 => some (.writeConversionRecord .held (byteAt a 0) (BitVec.ofNat 128 (leNat ((a.drop 1).take 16))))
  | 0x23 => some (.readConversionRecord .held (byteAt a 0) (byteAt a 1))
  | 0x24 => some (.commit .held)
  | 0x25 => some (.discardStaged .held)
  | 0x30 => match (byteAt a 1).toNat with
    | 1 => some (.enable .held (byteAt a 0))
    | 2 => some (.disable .held (byteAt a 0))
    | 3 => some (.clearFault .held (byteAt a 0))
    | 4 => some (.clearFlags .held (byteAt a 0))
    | _ => none
  | 0x31 => match (byteAt a 1).toNat with
    | 1 => some (.start .held (byteAt a 0))
    | 2 => some (.stop .held (byteAt a 0))
    | _ => none
  | 0x32 => some (.pushSetpoint .held (byteAt a 0) (byteAt a 1) (byteAt a 2) (wordAt a 3))
  | 0x33 => match (byteAt a 0).toNat with
    | 1 => some (.force .held)
    | 2 => some (.clear .held)
    | _ => none
  | 0x40 => some (.loadSetup .held (byteAt a 0) (BitVec.ofNat 64 (leNat ((a.drop 1).take 8))))
  | 0x41 => some (.loadStart .held (byteAt a 0))
  | 0x42 => some (.loadCancel .held (byteAt a 0))
  | 0x43 => some (.loadStatus .held (byteAt a 0))
  | 0x50 => some (.releaseAddress .held)
  | 0x51 => some (.restart .held)
  | _ => none

/-- The smallest payload length that passes the length test of a held command: 3 + the larger of A and R (R169). -/
def heldLength : Nat → Option Nat
  | 0x01 => some 11
  | 0x02 => some 55
  | 0x03 => some 15
  | 0x05 => some 5
  | 0x10 => some 7
  | 0x11 => some 9
  | 0x20 => some 12
  | 0x21 => some 11
  | 0x22 => some 20
  | 0x23 => some 19
  | 0x24 => some 5
  | 0x30 => some 5
  | 0x31 => some 5
  | 0x32 => some 10
  | 0x33 => some 4
  | 0x40 => some 12
  | 0x41 => some 4
  | 0x42 => some 4
  | 0x43 => some 6
  | 0x04 | 0x25 | 0x50 | 0x51 => some 3
  | _ => none

end Sys2Proof.Machine
end

