-- ==== Sys2Proof/WellFormed.lean ====
section
/-! DEFINITION. What the master is to send: 00 §3.5 (reserved fields are written as zero) and the broadcast column of R169.
The machine gives an ill-formed command its stated result all the same (R170, R171): this check guards no step. -/

namespace Sys2Proof

/-- The carrier of a management command; none for an event. -/
def Instr.via : Instr → Option Via
  | .rstnFall | .rstnRelease _ | .characterReceived _ _ _ _ | .gapTimeout _ | .transmitCharacter _ | .assign _ _
  | .periodBoundary _ | .dutyMatch _ | .deadTimeExpiry _ _ | .filteredLevelChange _ | .restartTakesEffect
  | .lineIdle | .startBitEdge | .startBitSample _ | .characterSent _ | .timebaseTick _ | .sampleInstant _ _ => none
  | .identify v | .readStatus v | .readCounters v | .clearCounters v | .acknowledgeAttention v _
  | .readParameter v _ | .writeParameter v _ _ | .writeAttentionMask v _ | .writeTripFilter v _
  | .writeInputFilter v _ _ | .writePeriod v _ _ | .writePrescaler v _ _ | .writeDeadTime v _ _
  | .writePolarity v _ _ | .writeSafeLevels v _ _ | .writeGate v _ _ | .writeTripEnable v _ _
  | .writeRingMode v _ _ | .writeRingDepth v _ _ | .writeExceptionMask v _ _ | .writeMapEntry v _ _
  | .readMapEntry v _ _ | .writeConversionRecord v _ _ | .readConversionRecord v _ _ | .commit v
  | .discardStaged v | .enable v _ | .disable v _ | .clearFault v _ | .clearFlags v _ | .start v _ | .stop v _
  | .pushSetpoint v _ _ _ _ | .force v | .clear v | .loadSetup v _ _ | .loadStart v _ | .loadCancel v _
  | .loadStatus v _ | .releaseAddress v | .restart v => some v

/-- The broadcast column of R169. -/
def Instr.broadcastPermitted : Instr → Bool
  | .commit _ | .enable _ _ | .disable _ _ | .clearFault _ _ | .clearFlags _ _ | .start _ _ | .stop _ _
  | .force _ | .clear _ | .releaseAddress _ | .restart _ => true
  | .rstnFall | .rstnRelease _ | .characterReceived _ _ _ _ | .gapTimeout _ | .transmitCharacter _ | .assign _ _
  | .periodBoundary _ | .dutyMatch _ | .deadTimeExpiry _ _ | .filteredLevelChange _ | .restartTakesEffect
  | .lineIdle | .startBitEdge | .startBitSample _ | .characterSent _ | .timebaseTick _ | .sampleInstant _ _
  | .identify _ | .readStatus _ | .readCounters _ | .clearCounters _ | .acknowledgeAttention _ _
  | .readParameter _ _ | .writeParameter _ _ _ | .writeAttentionMask _ _ | .writeTripFilter _ _
  | .writeInputFilter _ _ _ | .writePeriod _ _ _ | .writePrescaler _ _ _ | .writeDeadTime _ _ _
  | .writePolarity _ _ _ | .writeSafeLevels _ _ _ | .writeGate _ _ _ | .writeTripEnable _ _ _
  | .writeRingMode _ _ _ | .writeRingDepth _ _ _ | .writeExceptionMask _ _ _ | .writeMapEntry _ _ _
  | .readMapEntry _ _ _ | .writeConversionRecord _ _ _ | .readConversionRecord _ _ _
  | .discardStaged _ | .pushSetpoint _ _ _ _ _ | .loadSetup _ _ _ | .loadStart _ _ | .loadCancel _ _
  | .loadStatus _ _ => false

/-- The reserved bits of the operands are 0 (00 §3.5; the reserved bits of each write stand in its rule). -/
def Instr.reservedZero : Instr → Bool
  | .acknowledgeAttention _ f => f &&& 0xE000 == 0
  | .writeAttentionMask _ v => v &&& 0xFFFFE000 == 0
  | .writeTripFilter _ v | .writeInputFilter _ _ v | .writePrescaler _ _ v | .writePolarity _ _ v => v &&& 0xFFFFFFFC == 0
  | .writePeriod _ _ v => v &&& 0xFFFF0000 == 0
  | .writeDeadTime _ _ v | .writeRingMode _ _ v | .writeRingDepth _ _ v => v &&& 0xFFFFFF00 == 0
  | .writeSafeLevels _ _ v | .writeExceptionMask _ _ v => v &&& 0xFFFFFFF0 == 0
  | .writeGate _ _ v => v &&& 0xFFFFFFE0 == 0
  | .writeTripEnable _ _ v => v &&& 0xFFFFFFFE == 0
  | .writeMapEntry _ _ r => r &&& 0xF8 == 0
  | .writeConversionRecord _ _ r => r &&& 0xF8 == 0
  | .loadSetup _ _ d => d &&& 0xFFFF0000000000F8 == 0
  | .rstnFall | .rstnRelease _ | .characterReceived _ _ _ _ | .gapTimeout _ | .transmitCharacter _ | .assign _ _
  | .periodBoundary _ | .dutyMatch _ | .deadTimeExpiry _ _ | .filteredLevelChange _ | .restartTakesEffect
  | .lineIdle | .startBitEdge | .startBitSample _ | .characterSent _ | .timebaseTick _ | .sampleInstant _ _
  | .identify _ | .readStatus _ | .readCounters _ | .clearCounters _ | .readParameter _ _ | .writeParameter _ _ _
  | .readMapEntry _ _ _ | .readConversionRecord _ _ _ | .commit _ | .discardStaged _ | .enable _ _ | .disable _ _
  | .clearFault _ _ | .clearFlags _ _ | .start _ _ | .stop _ _ | .pushSetpoint _ _ _ _ _ | .force _ | .clear _
  | .loadStart _ _ | .loadCancel _ _ | .loadStatus _ _ | .releaseAddress _ | .restart _ => true

/-- A command as the master is to send it: reserved bits zero, and a broadcast only where R169 permits it. -/
def Instr.wellFormed (i : Instr) : Bool :=
  i.reservedZero && (i.via != some .broadcast || i.broadcastPermitted)

end Sys2Proof
end

