-- ==== Sys2Proof/Certificates/Slice0/Obligations.lean ====
section
/-! DEFINITION. The statements for the provers. -/

open Sys2Proof Sys2Proof.Machine

/-! ### The queue, the frame of an event, broadcasts -/

/-- A step is `exec` of the front command on the state with the queue's rest. -/
def Obligations.StepRunsTheFrontCommand : Prop :=
  ∀ (c : Instr) (rest : List Instr) (s : Machine.State), s.pending = c :: rest → step s = exec c { s with pending := rest }

/-- Every command answers a next state with the queue as it was, and an empty queue idles (log 12). -/
def Obligations.CommandsLeaveTheQueue : Prop :=
  (∀ (c : Instr) (s : Machine.State), ∃ t, exec c s = .next t ∧ t.pending = s.pending) ∧
  (∀ s : Machine.State, s.pending = [] → step s = .next s)

/-- RSTN_FALL, and the part while RSTn is low: TXO at 1, outputs in high impedance, nothing taken
(that the rest of the state is kept is the model's choice, log 11). -/
def Obligations.RstnLowStopsThePart : Prop :=
  (∀ s : Machine.State, exec .rstnFall s = .next { s with
    fwd := { s.fwd with fifo := [], stage := [], hold := [], txo := .idle }
    mge := { flags := 0, mask := 0x1FFF, restart := none, answer := none }
    pins := { s.pins with rstn := false } }) ∧
  (∀ (c : Instr) (s : Machine.State), s.pins.rstn = false → c ≠ .rstnFall → (∀ straps, c ≠ .rstnRelease straps) →
    exec c s = .next s) ∧
  (∀ s : Machine.State, s.pins.rstn = false →
    (∀ n : Fin 6, s.pinHi n = .highZ ∧ s.pinLo n = .highZ) ∧ ∀ time, s.txoLevel time = true)

/-- A command that is not broadcast-permitted changes nothing in a broadcast. -/
def Obligations.UnpermittedBroadcastIsIgnored : Prop :=
  ∀ (c : Instr) (s : Machine.State), c.via = some .broadcast → c.broadcastPermitted = false → exec c s = .next s

/-! ### Invariants -/

/-- The reset state has every invariant. -/
def Obligations.ResetStateIsSound : Prop :=
  Inv State.reset ∧ BanksSound State.reset ∧ LoadsSound State.reset ∧ TelegramSound State.reset

/-- Every step keeps `Inv`. -/
def Obligations.StepKeepsTheInvariant : Prop :=
  ∀ s t : Machine.State, Inv s → step s = .next t → Inv t

/-- Every step keeps the banks field-valid and the active banks valid as a whole. -/
def Obligations.StepKeepsTheBanksSound : Prop :=
  ∀ s t : Machine.State, BanksSound s → step s = .next t → BanksSound t

/-- Every step keeps the load channel records consistent. -/
def Obligations.StepKeepsTheLoadsSound : Prop :=
  ∀ s t : Machine.State, LoadsSound s → step s = .next t → LoadsSound t

/-- Every step keeps the blocks agreed on the telegram in progress, while RSTn is high. -/
def Obligations.StepKeepsTheTelegramSound : Prop :=
  ∀ s t : Machine.State, (s.released → TelegramSound s) → step s = .next t → t.released → TelegramSound t

/-! ### What changes what -/

/-- The active banks change only by a commit or a reset (CHARACTER_RECEIVED carries commits whole); who changes the station
address, and who changes the line rate. -/
def Obligations.BanksAddressAndRateChangeOnlyByTheirCommands : Prop :=
  (∀ (c : Instr) (s t : Machine.State), exec c s = .next t →
      (∀ via, c ≠ .commit via) → (∀ data marker stop time, c ≠ .characterReceived data marker stop time) →
      (∀ straps, c ≠ .rstnRelease straps) → c ≠ .restartTakesEffect →
      t.map.role = s.map.role ∧ t.map.activeMap = s.map.activeMap ∧ t.map.activeConv = s.map.activeConv) ∧
  (∀ (c : Instr) (s t : Machine.State), exec c s = .next t →
      (t.lrx.address ≠ s.lrx.address →
        (∃ mark offer, c = .assign mark offer) ∨ (∃ via, c = .releaseAddress via) ∨
        (∃ data marker stop time, c = .characterReceived data marker stop time) ∨ ∃ straps, c = .rstnRelease straps) ∧
      (t.lrx.rate ≠ s.lrx.rate → ∃ straps, c = .rstnRelease straps))

/-- An edge of a gated level restarts both ages of its channel, and ages grow at ticks alone. -/
def Obligations.EdgesRestartTheAges : Prop :=
  ∀ (c : Instr) (s t : Machine.State) (n : Fin 6), s.released → exec c s = .next t →
    (s.gated n ≠ t.gated n → t.out[n].ageHi = 0 ∧ t.out[n].ageLo = 0 ∧ t.out[n].afterTrip = false) ∧
    ((∀ b, c ≠ .timebaseTick b) → (∀ b, c ≠ .periodBoundary b) → (∀ m, c ≠ .dutyMatch m) →
      (∀ m side, c ≠ .deadTimeExpiry m side) →
      (t.out[n].ageHi = s.out[n].ageHi ∧ t.out[n].ageLo = s.out[n].ageLo) ∨ (t.out[n].ageHi = 0 ∧ t.out[n].ageLo = 0))

/-- The two pins of a channel are never at their active levels together; and the levels they stand at, case by case: forced by the
trip, forced outside RUNNING and at a STOPPED timebase, else driven by the logical levels through the polarity. Last,
the levels of R144 between a CLEAR and an assertion of the trip at the same moment, read off the mark of the CLEAR (the model's choice,
log 20). -/
def Obligations.PairIsNeverActiveTogether : Prop :=
  (∀ (s : Machine.State) (n : Fin 6), Inv s → s.pairSafe n) ∧
  (Polarity.activeHigh.level true = .high ∧ Polarity.activeHigh.level false = .low ∧
    Polarity.activeLow.level true = .low ∧ Polarity.activeLow.level false = .high) ∧
  (∀ p : Polarity, SafeLevel.inactive.level p = p.level false ∧ SafeLevel.active.level p = p.level true ∧
    SafeLevel.float.level p = .highZ) ∧
  (∀ (s : Machine.State) (n : Fin 6), s.released →
    let c := s.chn[n]
    let o := s.out[n]
    let b := if n.val < 3 then s.tb[0] else s.tb[1]
    let gated := decide (b.counter < c.duty) && (match o.gate with
      | .none => true
      | .input k active => s.tiu.inputs[k].level == active)
    let hi := gated && decide (c.deadTime ≤ o.ageHi)
    let lo := !gated && decide (c.deadTime ≤ o.ageLo)
    (s.tiu.latch = true → s.tiu.enable[n] = true →
      s.pinHi n = o.safeHi.level o.polHi ∧ s.pinLo n = o.safeLo.level o.polLo) ∧
    (c.state ≠ .running ∨ b.state = .stopped →
      s.pinHi n = o.safeHi.level o.polHi ∧ s.pinLo n = o.safeLo.level o.polLo) ∧
    (¬(s.tiu.latch = true ∧ s.tiu.enable[n] = true) → c.state = .running → b.state = .running →
      s.pinHi n = o.polHi.level hi ∧ s.pinLo n = o.polLo.level lo) ∧
    s.logical n .hi = hi ∧ s.logical n .lo = lo ∧
    (¬(s.tiu.latch = true ∧ s.tiu.enable[n] = true) → c.state = .running → b.state = .running → o.afterTrip = true →
      s.pinBetween n .hi = o.polHi.level false ∧ s.pinBetween n .lo = o.polLo.level false) ∧
    (o.afterTrip = false ∨ s.forced n = true →
      s.pinBetween n .hi = s.pinHi n ∧ s.pinBetween n .lo = s.pinLo n))

/-! ### Resets -/

/-- Both resets give every block its reset values; RESTART keeps station address and line rate, and the row has no effect
before the restart point (logs 3, 7). -/
def Obligations.BothResetsGiveTheResetValues : Prop :=
  (∀ (straps : BitVec 2) (s : Machine.State), exec (.rstnRelease straps) s =
    .next { s.atResetValues straps 0 with pins := { s.pins with rstn := true } }) ∧
  (∀ s : Machine.State, s.released → s.mge.restart = some (.after 0) →
    exec .restartTakesEffect s = .next (s.atResetValues s.lrx.rate s.lrx.address)) ∧
  (∀ s : Machine.State, s.mge.restart ≠ some (.after 0) → exec .restartTakesEffect s = .next s)

/-- FWD after either reset. -/
def Obligations.ForwardPathAfterReset : Prop :=
  ∀ (c : Instr) (s t : Machine.State), exec c s = .next t →
    ((∃ straps, c = .rstnRelease straps) ∨ (c = .restartTakesEffect ∧ s.released ∧ s.mge.restart = some (.after 0))) →
    t.fwd.state = .idle ∧ t.fwd.fifo = [] ∧ t.level = 0 ∧ t.fwd.stage = [] ∧ t.fwd.hold = [] ∧ t.fwd.txo = .idle ∧
    (∀ time, t.txoLevel time = true) ∧ t.fwd.changed = false ∧ t.fwd.acc = 0xFFFF ∧ t.fwd.highWater = 0

/-- RESTART by its row: marked pending over the characters in the FIFO and at TXO, or left where it stands (R40, R184; log 8). -/
def Obligations.RestartFixesItsPoint : Prop :=
  ∀ s : Machine.State, s.released →
    (s.mge.restart = none →
      let point := RestartPoint.after (s.fwd.fifo.length + if s.fwd.txo = .idle then 0 else 1)
      let u := { s with mge := { s.mge with restart := some point } }
      exec (.restart .held) s = .next (u.answered .done) ∧ exec (.restart .broadcast) s = .next u) ∧
    (∀ k, s.mge.restart = some (.after k) →
      exec (.restart .held) s = .next (s.answered .done) ∧ exec (.restart .broadcast) s = .next s)

/-! ### Timebases and channels -/

/-- A tick inside a period: the counter grows by one, and the ages of the three channels grow or restart. The two rows that name
such a tick: the fall of the raw level, and an output becoming active (log 5); elsewhere, at a STOPPED timebase and at the last
tick of a period too, neither row has an effect but where that tick makes the output active (log 3). -/
def Obligations.TicksInsideAPeriod : Prop :=
  (∀ (b : Fin 2) (s : Machine.State), s.released →
      (s.tb[b].state = .stopped → exec (.timebaseTick b) s = .next s) ∧
      (s.tb[b].state = .running → s.tb[b].counter + 1 < s.tb[b].period →
        let v := s.setTimebase b { s.tb[b] with counter := s.tb[b].counter + 1 }
        exec (.timebaseTick b) s = .next { v with
        out := Vector.ofFn fun n : Fin 6 =>
          if timebaseOf n ≠ b then s.out[n]
          else if s.gated n ≠ v.gated n then { s.out[n] with ageHi := 0, ageLo := 0, afterTrip := false }
          else if v.gated n then { s.out[n] with ageHi := min (s.out[n].ageHi + 1) 255, ageLo := 0, afterTrip := false }
          else { s.out[n] with ageHi := 0, ageLo := min (s.out[n].ageLo + 1) 255, afterTrip := false } })) ∧
  (∀ (n : Fin 6) (s : Machine.State), s.released → s.tb[timebaseOf n].state = .running →
      s.tb[timebaseOf n].counter + 1 < s.tb[timebaseOf n].period →
      (s.tb[timebaseOf n].counter + 1 = s.chn[n].duty →
        ∃ u, exec (.dutyMatch n) s = .next u ∧ exec (.timebaseTick (timebaseOf n)) s = .next u ∧
          s.raw n = true ∧ u.raw n = false) ∧
      (s.tb[timebaseOf n].counter + 1 ≠ s.chn[n].duty → exec (.dutyMatch n) s = .next s) ∧
      (s.chn[n].deadTime ≤ 255 → s.gateOpen n = true → s.tb[timebaseOf n].counter + 1 < s.chn[n].duty →
        s.out[n].ageHi + 1 = s.chn[n].deadTime →
        ∃ u, exec (.deadTimeExpiry n .hi) s = .next u ∧ exec (.timebaseTick (timebaseOf n)) s = .next u ∧
          s.logical n .hi = false ∧ u.logical n .hi = true ∧ u.out[n].ageHi = s.chn[n].deadTime) ∧
      (¬(s.gateOpen n = true ∧ s.tb[timebaseOf n].counter + 1 < s.chn[n].duty ∧ s.out[n].ageHi + 1 = s.chn[n].deadTime) →
        exec (.deadTimeExpiry n .hi) s = .next s) ∧
      (s.chn[n].deadTime ≤ 255 → s.gated n = false → s.out[n].ageLo + 1 = s.chn[n].deadTime →
        ∃ u, exec (.deadTimeExpiry n .lo) s = .next u ∧ exec (.timebaseTick (timebaseOf n)) s = .next u ∧
          s.logical n .lo = false ∧ u.logical n .lo = true ∧ u.out[n].ageLo = s.chn[n].deadTime) ∧
      (s.chn[n].deadTime = 0 → s.gated n = true → s.tb[timebaseOf n].counter + 1 = s.chn[n].duty →
        ∃ u, exec (.deadTimeExpiry n .lo) s = .next u ∧ exec (.timebaseTick (timebaseOf n)) s = .next u ∧
          s.logical n .lo = false ∧ u.logical n .lo = true) ∧
      (¬(s.gated n = false ∧ s.out[n].ageLo + 1 = s.chn[n].deadTime) →
        ¬(s.chn[n].deadTime = 0 ∧ s.gated n = true ∧ s.tb[timebaseOf n].counter + 1 = s.chn[n].duty) →
        exec (.deadTimeExpiry n .lo) s = .next s)) ∧
  (∀ (n : Fin 6) (s : Machine.State), s.released →
      (s.tb[timebaseOf n].state = .stopped ∨ s.tb[timebaseOf n].period ≤ s.tb[timebaseOf n].counter + 1 →
        exec (.dutyMatch n) s = .next s) ∧
      (s.tb[timebaseOf n].state = .stopped → ∀ side, exec (.deadTimeExpiry n side) s = .next s) ∧
      (∀ (side : Side) (u : Machine.State), exec (.timebaseTick (timebaseOf n)) s = .next u →
        let age := match side with
          | .hi => u.out[n].ageHi
          | .lo => u.out[n].ageLo
        (s.logical n side = false → u.logical n side = true → age = u.chn[n].deadTime →
          exec (.deadTimeExpiry n side) s = .next u) ∧
        (¬(s.logical n side = false ∧ u.logical n side = true ∧ age = u.chn[n].deadTime) →
          exec (.deadTimeExpiry n side) s = .next s)))

/-- Which exception is pending first; and the tick from P - 1: the boundary and its work, with the ages; TIMEBASE_TICK and PERIOD_BOUNDARY
are that same tick there (log 5), and PERIOD_BOUNDARY has no effect elsewhere (log 3). -/
def Obligations.TickAtThePeriodEndIsTheBoundary : Prop :=
  (∀ e : ExcSet, e.get .invalid = e.invalid ∧ e.get .range = e.range ∧ e.get .overrun = e.overrun ∧ e.get .stale = e.stale) ∧
  (∀ c : Channel, c.firstPending =
    if c.sticky.invalid = true ∧ c.mask.invalid = false then some .invalid
    else if c.sticky.range = true ∧ c.mask.range = false then some .range
    else if c.sticky.overrun = true ∧ c.mask.overrun = false then some .overrun
    else if c.sticky.stale = true ∧ c.mask.stale = false then some .stale
    else none) ∧
  ∀ (b : Fin 2) (s : Machine.State), s.released →
    (s.tb[b].state = .running → s.tb[b].period ≤ s.tb[b].counter + 1 →
      ∃ u, exec (.timebaseTick b) s = .next u ∧ exec (.periodBoundary b) s = .next u ∧
        BoundaryWork s u (fun t => decide (t = b)) ∧
        ∀ n : Fin 6, timebaseOf n = b →
          (s.gated n ≠ u.gated n ∨ enteredRunning s u n →
            u.out[n] = { s.out[n] with ageHi := 0, ageLo := 0, afterTrip := false }) ∧
          (¬(s.gated n ≠ u.gated n ∨ enteredRunning s u n) →
            u.out[n] = if u.gated n then { s.out[n] with ageHi := min (s.out[n].ageHi + 1) 255, ageLo := 0, afterTrip := false }
              else { s.out[n] with ageHi := 0, ageLo := min (s.out[n].ageLo + 1) 255, afterTrip := false })) ∧
    (s.tb[b].state = .stopped ∨ s.tb[b].counter + 1 < s.tb[b].period → exec (.periodBoundary b) s = .next s)

/-- START of stopped timebases makes their boundaries in the one event and restarts the ages of their channels; STOP freezes the
selected timebases. -/
def Obligations.StartMakesTheBoundariesAndStopFreezes : Prop :=
  (∀ (set : Byte) (s : Machine.State), s.released → set ≠ 0 → set &&& 0xFC = 0 →
      (∀ t : Fin 2, set.getLsbD t.val = true → s.tb[t].state = .stopped) →
      ∃ u, exec (.start .broadcast set) s = .next u ∧ exec (.start .held set) s = .next (u.answered .done) ∧
        BoundaryWork s u (fun t => set.getLsbD t.val) ∧
        ∀ n : Fin 6, set.getLsbD (timebaseOf n).val = true →
          u.out[n] = { s.out[n] with ageHi := 0, ageLo := 0, afterTrip := false }) ∧
  (∀ (set : Byte) (s : Machine.State), s.released →
    (set ≠ 0 → set &&& 0xFC = 0 →
      let u := { s with
        tb := Vector.ofFn fun t : Fin 2 =>
          if set.getLsbD t.val then { s.tb[t] with state := .stopped } else s.tb[t] }
      exec (.stop .held set) s = .next (u.answered .done) ∧ exec (.stop .broadcast set) s = .next u))

/-- ENABLE, DISABLE and CLEAR_FAULT carried out on every selected channel in one event. -/
def Obligations.ChannelControlMovesTheSelectedChannels : Prop :=
  ∀ (set : Byte) (s : Machine.State), s.released → set ≠ 0 → set &&& 0xC0 = 0 →
    let armed := { s with
      chn := Vector.ofFn fun n : Fin 6 => if set.getLsbD n.val then
        { s.chn[n] with state := .armed, cause := none, duty := 0, code := .within, saturated := false } else s.chn[n]
      rings := Vector.ofFn fun n : Fin 6 => if set.getLsbD n.val then { s.rings[n] with slots := [] } else s.rings[n] }
    let disabled := { s with
      chn := Vector.ofFn fun n : Fin 6 => if set.getLsbD n.val && s.chn[n].state != .disabled then
        { s.chn[n] with state := .disabled, cause := none, duty := 0, code := .within, saturated := false } else s.chn[n]
      rings := Vector.ofFn fun n : Fin 6 => if set.getLsbD n.val && s.chn[n].state != .disabled then
        { s.rings[n] with slots := [] } else s.rings[n] }
    ((∀ n : Fin 6, set.getLsbD n.val = true → s.chn[n].state = .disabled ∧
        ∀ e : Exc, s.chn[n].sticky.get e = true → s.chn[n].mask.get e = true) →
      exec (.enable .held set) s = .next (settleEdges s (armed.answered .done)) ∧
      exec (.enable .broadcast set) s = .next (settleEdges s armed)) ∧
    ((∀ n : Fin 6, set.getLsbD n.val = true → s.chn[n].state = .fault ∧
        ∀ e : Exc, s.chn[n].sticky.get e = true → s.chn[n].mask.get e = true) →
      exec (.clearFault .held set) s = .next (settleEdges s (armed.answered .done)) ∧
      exec (.clearFault .broadcast set) s = .next (settleEdges s armed)) ∧
    exec (.disable .held set) s = .next (settleEdges s (disabled.answered .done)) ∧
    exec (.disable .broadcast set) s = .next (settleEdges s disabled)

/-- CLEAR_FLAGS clears the four sticky flags of the selected channels and nothing else: no exception stays pending, so a channel
in FAULT may take CLEAR_FAULT and the next boundary fires none; a later exception sets its flag again. -/
def Obligations.ClearFlagsClearsTheStickyFlags : Prop :=
  ∀ (set : Byte) (s : Machine.State), s.released → set ≠ 0 → set &&& 0xC0 = 0 →
    let u := { s with
      chn := Vector.ofFn fun n : Fin 6 =>
        if set.getLsbD n.val then { s.chn[n] with sticky := ⟨false, false, false, false⟩ } else s.chn[n] }
    exec (.clearFlags .held set) s = .next (u.answered .done) ∧ exec (.clearFlags .broadcast set) s = .next u ∧
    ∀ n : Fin 6, set.getLsbD n.val = true →
      u.chn[n].firstPending = none ∧
      (u.chn[n].state = .fault → clearFaultRefusal u.chn[n] = none ∧ u.chn[n].cause = s.chn[n].cause) ∧
      (∀ p, u.channelBoundary p n = (if u.chn[n].state = .armed ∨ u.chn[n].state = .running then
        (u.takeDeadTime n).popApply n p else u.takeDeadTime n)) ∧
      ∀ e, (u.raise n e).chn[n].sticky.get e = true

/-- TIMEBASE CONTROL and CHANNEL CONTROL refused: for a bad set; START for the lowest-numbered RUNNING timebase; ENABLE and
CLEAR_FAULT as the lowest-numbered selected channel that refuses would be. -/
def Obligations.ControlCommandsAreRefusedWhole : Prop :=
  ∀ (set : Byte) (s : Machine.State), s.released →
    (set = 0 ∨ set &&& 0xFC ≠ 0 →
      exec (.start .held set) s = .next (s.answered .badArgument) ∧ exec (.stop .held set) s = .next (s.answered .badArgument) ∧
      exec (.start .broadcast set) s = .next s ∧ exec (.stop .broadcast set) s = .next s) ∧
    (∀ t : Fin 2, set ≠ 0 → set &&& 0xFC = 0 → set.getLsbD t.val = true → s.tb[t].state = .running →
      (∀ r : Fin 2, r < t → set.getLsbD r.val = true → s.tb[r].state = .stopped) →
      exec (.start .held set) s = .next (s.answered .wrongState [BitVec.ofNat 8 t.val]) ∧
      exec (.start .broadcast set) s = .next s) ∧
    (set = 0 ∨ set &&& 0xC0 ≠ 0 →
      exec (.enable .held set) s = .next (s.answered .badArgument) ∧
      exec (.disable .held set) s = .next (s.answered .badArgument) ∧
      exec (.clearFault .held set) s = .next (s.answered .badArgument) ∧
      exec (.clearFlags .held set) s = .next (s.answered .badArgument) ∧
      exec (.enable .broadcast set) s = .next s ∧ exec (.disable .broadcast set) s = .next s ∧
      exec (.clearFault .broadcast set) s = .next s ∧ exec (.clearFlags .broadcast set) s = .next s) ∧
    (set ≠ 0 → set &&& 0xC0 = 0 → ∀ n : Fin 6, set.getLsbD n.val = true →
      let blocked := fun m : Fin 6 => ∃ e : Exc, s.chn[m].sticky.get e = true ∧ s.chn[m].mask.get e = false
      ((∀ m : Fin 6, m < n → set.getLsbD m.val = true → s.chn[m].state = .disabled ∧ ¬blocked m) →
        (s.chn[n].state ≠ .disabled →
          exec (.enable .held set) s = .next (s.answered .wrongState [BitVec.ofNat 8 n.val]) ∧
          exec (.enable .broadcast set) s = .next s) ∧
        (s.chn[n].state = .disabled → blocked n →
          exec (.enable .held set) s = .next (s.answered .pendingException [BitVec.ofNat 8 n.val]) ∧
          exec (.enable .broadcast set) s = .next s)) ∧
      ((∀ m : Fin 6, m < n → set.getLsbD m.val = true → s.chn[m].state = .fault ∧ ¬blocked m) →
        (s.chn[n].state ≠ .fault →
          exec (.clearFault .held set) s = .next (s.answered .wrongState [BitVec.ofNat 8 n.val]) ∧
          exec (.clearFault .broadcast set) s = .next s) ∧
        (s.chn[n].state = .fault → blocked n →
          exec (.clearFault .held set) s = .next (s.answered .pendingException [BitVec.ofNat 8 n.val]) ∧
          exec (.clearFault .broadcast set) s = .next s)))

/-! ### Trip and inputs -/

/-- One sample of a filter, and runs of disagreeing samples: the level changes at the N-th and not before. -/
def Obligations.FilterChangesAtTheNthDisagreeingSample : Prop :=
  ∀ (f : Machine.Filter) (v : Bool),
    (v = f.level → f.sample v = { f with run := 0 }) ∧
    (v ≠ f.level → f.run + 1 < filterLength f.code → f.sample v = { f with run := f.run + 1 }) ∧
    (v ≠ f.level → f.run + 1 = filterLength f.code → f.sample v = { f with level := v, run := 0 }) ∧
    (v ≠ f.level → ∀ k, f.run + k < filterLength f.code →
      Nat.repeat (fun g => g.sample v) k f = { f with run := f.run + k }) ∧
    (v ≠ f.level → ∀ k, f.run + k + 1 = filterLength f.code →
      Nat.repeat (fun g => g.sample v) (k + 1) f = { f with level := v, run := 0 }) ∧
    ([0, 1, 2, 3].map filterLength = [1, 4, 16, 64])

/-- SAMPLE_INSTANT samples all nine pins in one event; FILTERED_LEVEL_CHANGE is the completing sample of one filter (log 6).
The filtered trip input becoming asserted sets the latch and TRIP. -/
def Obligations.SamplesReachFiltersLatchAndGates : Prop :=
  ∀ s : Machine.State, s.released →
    (∀ (tripn : Bool) (levels : Byte),
      let f := s.tiu.trip.sample tripn
      let fell := s.tiu.trip.level && !f.level
      exec (.sampleInstant tripn levels) s = .next (settleEdges s { s with
        tiu := { s.tiu with
          trip := f
          inputs := Vector.ofFn fun k : Fin 8 => s.tiu.inputs[k].sample (levels.getLsbD k.val)
          latch := s.tiu.latch || fell }
        mge := { s.mge with flags := if fell then s.mge.flags ||| 0x40 else s.mge.flags }
        pins := { s.pins with tripn := tripn, inputs := levels } })) ∧
    (s.tiu.trip.run + 1 = filterLength s.tiu.trip.code →
      exec (.filteredLevelChange .trip) s = .next { s with
        tiu := { s.tiu with
          trip := { s.tiu.trip with level := !s.tiu.trip.level, run := 0 }
          latch := s.tiu.latch || s.tiu.trip.level }
        mge := { s.mge with flags := if s.tiu.trip.level then s.mge.flags ||| 0x40 else s.mge.flags }
        pins := { s.pins with tripn := !s.tiu.trip.level } }) ∧
    (∀ k : Fin 8, s.tiu.inputs[k].run + 1 = filterLength s.tiu.inputs[k].code →
      ∃ levels, exec (.filteredLevelChange (.input k)) s = .next (settleEdges s { s with
        tiu := { s.tiu with inputs := s.tiu.inputs.set k { s.tiu.inputs[k] with level := !s.tiu.inputs[k].level, run := 0 } }
        pins := { s.pins with inputs := levels } }) ∧
      ∀ j : Fin 8, levels.getLsbD j.val = if j = k then !s.tiu.inputs[k].level else s.pins.inputs.getLsbD j.val) ∧
    (s.tiu.trip.run + 1 < filterLength s.tiu.trip.code → exec (.filteredLevelChange .trip) s = .next s) ∧
    (∀ k : Fin 8, s.tiu.inputs[k].run + 1 < filterLength s.tiu.inputs[k].code →
      exec (.filteredLevelChange (.input k)) s = .next s)

/-- FORCE, CLEAR and TRIP_ENABLE: the latch, the flag TRIP, the forced pins, and the ages that restart where trip forcing ends, so
that in that event an output is logically active only with a dead time of 0. Of a CLEAR and an assertion of the filtered trip input
at the same moment, no driven level becomes active in between, and the pins stand at their safe levels after both (R144; the mark of
the CLEAR, and the levels in between as a reading of their own, are the model's choice, log 20). -/
def Obligations.TripIsForcedClearedAndEnabled : Prop :=
  ∀ s : Machine.State, s.released →
    (∀ u : Machine.State,
      u = { s with tiu := { s.tiu with latch := true }, mge := { s.mge with flags := s.mge.flags ||| 0x40 } } →
      exec (.force .held) s = .next (u.answered .done [if s.tiu.trip.level then 1 else 3]) ∧
      exec (.force .broadcast) s = .next u ∧
      ∀ n : Fin 6, s.tiu.enable[n] = true →
        u.pinHi n = s.out[n].safeHi.level s.out[n].polHi ∧ u.pinLo n = s.out[n].safeLo.level s.out[n].polLo) ∧
    (s.tiu.trip.level = true →
      let u := { s with
        tiu := { s.tiu with latch := false }
        out := Vector.ofFn fun n : Fin 6 =>
          if s.tiu.latch && s.tiu.enable[n] then { s.out[n] with ageHi := 0, ageLo := 0, afterTrip := true } else s.out[n] }
      exec (.clear .held) s = .next (u.answered .done [0]) ∧ exec (.clear .broadcast) s = .next u ∧
      (∀ n : Fin 6, s.tiu.latch = true → s.tiu.enable[n] = true →
        u.logical n .hi = (s.gated n && decide (s.chn[n].deadTime = 0)) ∧
        u.logical n .lo = (!s.gated n && decide (s.chn[n].deadTime = 0))) ∧
      (filterLength s.tiu.trip.code ≤ s.tiu.trip.run + 1 →
        ∀ c : Instr, (c = .filteredLevelChange .trip ∨ ∃ inputs, c = .sampleInstant false inputs) →
          ∃ v, exec c u = .next v ∧ v.tiu.latch = true ∧
            ∀ n : Fin 6, s.tiu.latch = true → s.tiu.enable[n] = true →
              (s.chn[n].state = .running → s.tb[timebaseOf n].state = .running →
                u.pinBetween n .hi = s.out[n].polHi.level false ∧ u.pinBetween n .lo = s.out[n].polLo.level false ∧
                u.pinHi n = s.out[n].polHi.level (s.gated n && decide (s.chn[n].deadTime = 0)) ∧
                u.pinLo n = s.out[n].polLo.level (!s.gated n && decide (s.chn[n].deadTime = 0))) ∧
              v.pinHi n = s.out[n].safeHi.level s.out[n].polHi ∧ v.pinLo n = s.out[n].safeLo.level s.out[n].polLo)) ∧
    (s.tiu.trip.level = false →
      exec (.clear .held) s = .next (s.answered .tripActive [if s.tiu.latch then 3 else 2]) ∧
      exec (.clear .broadcast) s = .next s) ∧
    (∀ (n : Fin 6) (value : Word),
      (value.toNat < 2 →
        let on := value.getLsbD 0
        let u := { s with
          tiu := { s.tiu with enable := s.tiu.enable.set n on }
          out := if s.tiu.latch && s.tiu.enable[n] && !on then
            s.out.set n { s.out[n] with ageHi := 0, ageLo := 0, afterTrip := false } else s.out }
        exec (.writeTripEnable .held n value) s = .next (u.answered .done) ∧
        (s.tiu.latch = true → s.tiu.enable[n] = true → on = false →
          u.logical n .hi = (s.gated n && decide (s.chn[n].deadTime = 0)) ∧
          u.logical n .lo = (!s.gated n && decide (s.chn[n].deadTime = 0)))) ∧
      (2 ≤ value.toNat → exec (.writeTripEnable .held n value) s = .next (s.answered .reservedField)))

/-! ### Parameter writes -/

/-- TRIP_FILTER and INPUT_FILTER_k: the new length restarts the run and keeps the level. PERIOD is staged in any state; PRESCALER is
taken while STOPPED alone. -/
def Obligations.FilterAndTimebaseParameterWrites : Prop :=
  (∀ (s : Machine.State) (value : Word), s.released →
      (4 ≤ value.toNat →
        exec (.writeTripFilter .held value) s = .next (s.answered .reservedField) ∧
        ∀ k, exec (.writeInputFilter .held k value) s = .next (s.answered .reservedField)) ∧
      (value.toNat = 3 → exec (.writeTripFilter .held value) s = .next (s.answered .badArgument)) ∧
      (value.toNat < 3 → exec (.writeTripFilter .held value) s =
        .next (State.answered { s with
          tiu := { s.tiu with trip := { s.tiu.trip with code := BitVec.ofNat 2 value.toNat, run := 0 } } } .done)) ∧
      (value.toNat < 4 → ∀ k : Fin 8, exec (.writeInputFilter .held k value) s =
        .next (State.answered { s with
          tiu := { s.tiu with
            inputs := s.tiu.inputs.set k { s.tiu.inputs[k] with code := BitVec.ofNat 2 value.toNat, run := 0 } } } .done))) ∧
  (∀ (s : Machine.State) (b : Fin 2) (value : Word), s.released →
      (65536 ≤ value.toNat → exec (.writePeriod .held b value) s = .next (s.answered .reservedField)) ∧
      (value.toNat < 2 → exec (.writePeriod .held b value) s = .next (s.answered .badArgument)) ∧
      (2 ≤ value.toNat → value.toNat < 65536 → exec (.writePeriod .held b value) s =
        .next (State.answered { s with tb := s.tb.set b { s.tb[b] with staged := value.toNat } } .done)) ∧
      (4 ≤ value.toNat → exec (.writePrescaler .held b value) s = .next (s.answered .reservedField)) ∧
      (value.toNat < 4 → s.tb[b].state = .running →
        exec (.writePrescaler .held b value) s = .next (s.answered .wrongState)) ∧
      (value.toNat < 4 → s.tb[b].state = .stopped → exec (.writePrescaler .held b value) s =
        .next (State.answered { s with tb := s.tb.set b { s.tb[b] with prescaler := BitVec.ofNat 2 value.toNat } } .done)))

/-- DEAD_TIME, POLARITY, SAFE_LEVELS and GATE: the tests in their order and the setting replaced. -/
def Obligations.OutputParameterWrites : Prop :=
  [SafeLevel.inactive, .active, .float].map (·.code) = [0, 1, 2] ∧
  ∀ (s : Machine.State) (n : Fin 6) (value : Word), s.released →
    let put := fun o : Output => State.answered { s with out := s.out.set n o } .done
    (256 ≤ value.toNat → exec (.writeDeadTime .held n value) s = .next (s.answered .reservedField)) ∧
    (value.toNat < 256 →
      exec (.writeDeadTime .held n value) s = .next (put { s.out[n] with stagedDeadTime := value.toNat })) ∧
    (4 ≤ value.toNat → exec (.writePolarity .held n value) s = .next (s.answered .reservedField)) ∧
    (value.toNat < 4 → s.chn[n].state ≠ .disabled →
      exec (.writePolarity .held n value) s = .next (s.answered .wrongState)) ∧
    (value.toNat < 4 → s.chn[n].state = .disabled → exec (.writePolarity .held n value) s = .next (put { s.out[n] with
      polHi := if value.getLsbD 0 then .activeLow else .activeHigh
      polLo := if value.getLsbD 1 then .activeLow else .activeHigh })) ∧
    (16 ≤ value.toNat → exec (.writeSafeLevels .held n value) s = .next (s.answered .reservedField)) ∧
    (value.toNat < 16 → value.toNat % 4 = 3 ∨ value.toNat / 4 = 3 ∨ value.toNat = 5 →
      exec (.writeSafeLevels .held n value) s = .next (s.answered .badArgument)) ∧
    (∀ hi lo : SafeLevel, ¬(hi = .active ∧ lo = .active) →
      value = BitVec.ofNat 32 (hi.code + 4 * lo.code) →
      exec (.writeSafeLevels .held n value) s = .next (put { s.out[n] with safeHi := hi, safeLo := lo })) ∧
    (32 ≤ value.toNat → exec (.writeGate .held n value) s = .next (s.answered .reservedField)) ∧
    (value.toNat < 32 → value.getLsbD 3 = false → value ≠ 0 →
      exec (.writeGate .held n value) s = .next (s.answered .badArgument)) ∧
    (value = 0 → exec (.writeGate .held n value) s = .next (settleEdges s (put { s.out[n] with gate := .none }))) ∧
    (value.toNat < 32 → value.getLsbD 3 = true → ∃ k : Fin 8, k.val = value.toNat % 8 ∧
      exec (.writeGate .held n value) s =
        .next (settleEdges s (put { s.out[n] with gate := .input k (!value.getLsbD 4) })))

/-- RING_MODE and RING_DEPTH are taken in DISABLED alone; EXCEPTION_MASK in every state. -/
def Obligations.RingAndExceptionMaskWrites : Prop :=
  ∀ (s : Machine.State) (n : Fin 6) (value : Word), s.released →
    (256 ≤ value.toNat →
      exec (.writeRingMode .held n value) s = .next (s.answered .reservedField) ∧
      exec (.writeRingDepth .held n value) s = .next (s.answered .reservedField)) ∧
    (2 ≤ value.toNat → value.toNat < 256 → exec (.writeRingMode .held n value) s = .next (s.answered .badArgument)) ∧
    (value.toNat = 0 ∨ 9 ≤ value.toNat ∧ value.toNat < 256 →
      exec (.writeRingDepth .held n value) s = .next (s.answered .badArgument)) ∧
    (s.chn[n].state ≠ .disabled →
      (value.toNat < 2 → exec (.writeRingMode .held n value) s = .next (s.answered .wrongState)) ∧
      (1 ≤ value.toNat → value.toNat ≤ 8 → exec (.writeRingDepth .held n value) s = .next (s.answered .wrongState))) ∧
    (s.chn[n].state = .disabled →
      (value.toNat < 2 → exec (.writeRingMode .held n value) s = .next (State.answered { s with
        rings := s.rings.set n { s.rings[n] with mode := if value.toNat = 0 then .queued else .latest } } .done)) ∧
      (1 ≤ value.toNat → value.toNat ≤ 8 → exec (.writeRingDepth .held n value) s = .next (State.answered { s with
        rings := s.rings.set n { s.rings[n] with depth := value.toNat } } .done))) ∧
    (16 ≤ value.toNat → exec (.writeExceptionMask .held n value) s = .next (s.answered .reservedField)) ∧
    (value.toNat < 16 → exec (.writeExceptionMask .held n value) s = .next (State.answered { s with
      chn := s.chn.set n { s.chn[n] with
        mask := ⟨value.getLsbD 0, value.getLsbD 1, value.getLsbD 2, value.getLsbD 3⟩ } } .done))

/-! ### MGE -/

/-- IDENTIFY gives the identity constants in every state; a held telegram that carries it is refused for its length alone. -/
def Obligations.IdentifyGivesTheConstants : Prop :=
  (∀ s : Machine.State, s.released →
    exec (.identify .held) s = .next (s.answered .done [0x6B, 0x0D, 0x06, 0x24, 0x03, 6, 64, 16])) ∧
  (∀ (payload : List Byte) (s : Machine.State), byteAt payload 0 = 0x01 →
    executeHeld payload s =
      if 11 ≤ payload.length then ⟨s, .done, [0x6B, 0x0D, 0x06, 0x24, 0x03, 6, 64, 16]⟩ else ⟨s, .badLength, []⟩)

/-- READ STATUS: the 52 bytes, item by item. -/
def Obligations.ReadStatusDescribesThePart : Prop :=
  [ChannelState.disabled, .armed, .running, .fault].map (·.code) = [0, 1, 2, 3] ∧
  [Origin.command, .broadcast, .auto].map (·.code) = [0, 1, 2] ∧
  ∀ s : Machine.State, s.released → ∃ reply : List Byte, reply.length = 52 ∧
    exec (.readStatus .held) s = .next (s.answered .done reply) ∧
    reply.take 1 = [match s.map.role with | .a => 0 | .b => 1] ∧
    (reply.drop 1).take 4 = (match s.map.report with
      | .none => [0, 0xFF, 0xFF, 0xFF]
      | .done o => [1, o.code, 0xFF, 0xFF]
      | .busy o => [2, o.code, 0xFF, 0xFF]
      | .rejected o e c => [3, o.code, e, c]) ∧
    (reply.drop 5).take 1 = [BitVec.ofNat 8 s.fwd.highWater] ∧
    (∀ t : Fin 2, (reply.drop (6 + 5 * t.val)).take 5 =
      [if s.tb[t].state = .running then 1 else 0,
       BitVec.ofNat 8 s.tb[t].period, BitVec.ofNat 8 (s.tb[t].period / 256),
       BitVec.ofNat 8 s.tb[t].counter, BitVec.ofNat 8 (s.tb[t].counter / 256)]) ∧
    (∀ n : Fin 6, (reply.drop (16 + 6 * n.val)).take 6 =
      [BitVec.ofNat 8 (s.chn[n].state.code + if s.chn[n].saturated then 128 else 0),
       BitVec.ofNat 8 s.chn[n].duty, BitVec.ofNat 8 (s.chn[n].duty / 256), BitVec.ofNat 8 s.rings[n].slots.length] ++
      (match s.rings[n].slots with
       | [] => [0, 0]
       | slot :: _ => match slot.origin with
         | .telegram cycle => [1, cycle]
         | .management => [2, 0]))

/-- A counted event adds one to its counter up to 65535 and sets LINE_ERROR; READ COUNTERS reads the six counters;
CLEAR COUNTERS sets them to 0 and the high-water mark to the FIFO level, and leaves LINE_ERROR. -/
def Obligations.CountersAreCountedReadAndCleared : Prop :=
  (∀ (s : Machine.State) (e : LineError),
    s.countError e = { s with
      lrx := { s.lrx with
        counters := s.lrx.counters.set e.index
          (if s.lrx.counters[e.index] < 65535 then s.lrx.counters[e.index] + 1 else 65535) }
      mge := { s.mge with flags := s.mge.flags ||| 0x800 } }) ∧
  [LineError.crc, .framing, .gap, .truncated, .length, .overrun].map (·.index) = [0, 1, 2, 3, 4, 5] ∧
  ∀ s : Machine.State, s.released →
    (∃ reply : List Byte, reply.length = 12 ∧ exec (.readCounters .held) s = .next (s.answered .done reply) ∧
      ∀ i : Fin 6, (reply.drop (2 * i.val)).take 2 =
        [BitVec.ofNat 8 s.lrx.counters[i], BitVec.ofNat 8 (s.lrx.counters[i] / 256)]) ∧
    exec (.clearCounters .held) s = .next (State.answered { s with
      lrx := { s.lrx with counters := Vector.replicate 6 0 }, fwd := { s.fwd with highWater := s.fwd.fifo.length } } .done)

/-- ACKNOWLEDGE ATTENTION clears the named flags and replies the rest; ATTENTION_MASK; the summary of an answer. -/
def Obligations.AttentionIsAcknowledgedAndMasked : Prop :=
  ∀ s : Machine.State, s.released →
    (∀ set : Half, 0x2000 ≤ set.toNat →
      exec (.acknowledgeAttention .held set) s = .next (s.answered .reservedField)) ∧
    (∀ set : Half, set.toNat < 0x2000 → ∃ flags : BitVec 13,
      (∀ i, i < 13 → flags.getLsbD i = (s.mge.flags.getLsbD i && !set.getLsbD i)) ∧
      exec (.acknowledgeAttention .held set) s = .next (State.answered { s with mge := { s.mge with flags := flags } } .done
        [BitVec.ofNat 8 flags.toNat, BitVec.ofNat 8 (flags.toNat / 256)])) ∧
    (∀ value : Word, 0x2000 ≤ value.toNat →
      exec (.writeAttentionMask .held value) s = .next (s.answered .reservedField)) ∧
    (∀ value : Word, value.toNat < 0x2000 →
      exec (.writeAttentionMask .held value) s =
        .next (State.answered { s with mge := { s.mge with mask := BitVec.ofNat 13 value.toNat } } .done)) ∧
    (s.summary = 1 ↔ ∃ i, i < 13 ∧ s.mge.flags.getLsbD i = true ∧ s.mge.mask.getLsbD i = true) ∧
    (s.summary = 0 ∨ s.summary = 1)

/-- READ PARAMETER: each parameter's value at its number, and unknown numbers refused. -/
def Obligations.ReadParameterGivesTheValue : Prop :=
  [SafeLevel.inactive, .active, .float].map (·.code) = [0, 1, 2] ∧
  [ChannelState.disabled, .armed, .running, .fault].map (·.code) = [0, 1, 2, 3] ∧
  (∀ a b c d : Bool, ExcSet.toNat ⟨a, b, c, d⟩ =
    (if a then 1 else 0) + (if b then 2 else 0) + (if c then 4 else 0) + if d then 8 else 0) ∧
  ∀ s : Machine.State, s.released →
    let gives := fun (number value : Nat) => exec (.readParameter .held (BitVec.ofNat 16 number)) s =
      .next (s.answered .done [BitVec.ofNat 8 value, BitVec.ofNat 8 (value / 0x100), BitVec.ofNat 8 (value / 0x10000),
        BitVec.ofNat 8 (value / 0x1000000)])
    gives 0x0001 s.lrx.address.toNat ∧ gives 0x0002 s.lrx.rate.toNat ∧ gives 0x0003 s.mge.mask.toNat ∧
    gives 0x0004 s.mge.flags.toNat ∧ gives 0x0005 s.tiu.trip.code.toNat ∧
    gives 0x0006 ((if s.tiu.latch then 1 else 0) + if s.tiu.trip.level then 0 else 2) ∧
    (∀ k : Fin 8, gives (0x0008 + k.val) s.tiu.inputs[k].code.toNat) ∧
    (∃ levels : Byte, gives 0x0010 levels.toNat ∧ ∀ k : Fin 8, levels.getLsbD k.val = s.tiu.inputs[k].level) ∧
    (∀ t : Fin 2, gives (0x0020 + 8 * t.val) s.tb[t].staged ∧ gives (0x0021 + 8 * t.val) s.tb[t].prescaler.toNat ∧
      gives (0x0022 + 8 * t.val) (if s.tb[t].state = .running then 1 else 0)) ∧
    (∀ n : Fin 6, let base := 0x0100 + 0x10 * n.val
      gives base s.out[n].stagedDeadTime ∧
      gives (base + 1) ((if s.out[n].polHi = .activeLow then 1 else 0) + if s.out[n].polLo = .activeLow then 2 else 0) ∧
      gives (base + 2) (s.out[n].safeHi.code + 4 * s.out[n].safeLo.code) ∧
      gives (base + 3) (match s.out[n].gate with
        | .none => 0
        | .input k active => k.val + 8 + if active then 0 else 16) ∧
      gives (base + 4) (if s.tiu.enable[n] then 1 else 0) ∧
      gives (base + 5) (if s.rings[n].mode = .latest then 1 else 0) ∧ gives (base + 6) s.rings[n].depth ∧
      gives (base + 7) s.chn[n].mask.toNat ∧ gives (base + 8) s.chn[n].sticky.toNat ∧
      gives (base + 9) s.chn[n].state.code ∧ gives (base + 10) s.chn[n].duty ∧
      gives (base + 11) (match s.chn[n].cause with
        | none => 0xFF
        | some .invalid => 0
        | some .range => 1
        | some .overrun => 2
        | some .stale => 3)) ∧
    (∀ number : Half,
      number.toNat = 0 ∨ number.toNat = 7 ∨ (0x11 ≤ number.toNat ∧ number.toNat < 0x20) ∨
      (0x23 ≤ number.toNat ∧ number.toNat < 0x28) ∨ (0x2B ≤ number.toNat ∧ number.toNat < 0x100) ∨
      (0x100 ≤ number.toNat ∧ number.toNat < 0x160 ∧ 12 ≤ number.toNat % 16) ∨ 0x160 ≤ number.toNat →
      exec (.readParameter .held number) s = .next (s.answered .badArgument))

/-- WRITE PARAMETER is its owner's write at each RW number, READ_ONLY at the others, BAD_ARGUMENT at an unknown number. -/
def Obligations.WriteParameterRunsTheOwnersWrite : Prop :=
  ∀ (s : Machine.State) (value : Word), s.released →
    let owns := fun (number : Nat) (row : Instr) =>
      ∃ t, exec (.writeParameter .held (BitVec.ofNat 16 number) value) s = .next t ∧ exec row s = .next t
    let readOnly := fun (number : Nat) =>
      exec (.writeParameter .held (BitVec.ofNat 16 number) value) s = .next (s.answered .readOnly)
    owns 0x0003 (.writeAttentionMask .held value) ∧ owns 0x0005 (.writeTripFilter .held value) ∧
    (∀ k : Fin 8, owns (0x0008 + k.val) (.writeInputFilter .held k value)) ∧
    (∀ t : Fin 2, owns (0x0020 + 8 * t.val) (.writePeriod .held t value) ∧
      owns (0x0021 + 8 * t.val) (.writePrescaler .held t value) ∧ readOnly (0x0022 + 8 * t.val)) ∧
    (∀ n : Fin 6, let base := 0x0100 + 0x10 * n.val
      owns base (.writeDeadTime .held n value) ∧ owns (base + 1) (.writePolarity .held n value) ∧
      owns (base + 2) (.writeSafeLevels .held n value) ∧ owns (base + 3) (.writeGate .held n value) ∧
      owns (base + 4) (.writeTripEnable .held n value) ∧ owns (base + 5) (.writeRingMode .held n value) ∧
      owns (base + 6) (.writeRingDepth .held n value) ∧ owns (base + 7) (.writeExceptionMask .held n value) ∧
      readOnly (base + 8) ∧ readOnly (base + 9) ∧ readOnly (base + 10) ∧ readOnly (base + 11)) ∧
    readOnly 0x0001 ∧ readOnly 0x0002 ∧ readOnly 0x0004 ∧ readOnly 0x0006 ∧ readOnly 0x0010 ∧
    (∀ number : Half,
      number.toNat = 0 ∨ number.toNat = 7 ∨ (0x11 ≤ number.toNat ∧ number.toNat < 0x20) ∨
      (0x23 ≤ number.toNat ∧ number.toNat < 0x28) ∨ (0x2B ≤ number.toNat ∧ number.toNat < 0x100) ∨
      (0x100 ≤ number.toNat ∧ number.toNat < 0x160 ∧ 12 ≤ number.toNat % 16) ∨ 0x160 ≤ number.toNat →
      exec (.writeParameter .held number value) s = .next (s.answered .badArgument))

/-- A held payload that spells a row and passes the length test is executed as that row is; unknown codes, short payloads and
unknown action bytes are refused with nothing changed. RESTART is left to its own statement (log 8). -/
def Obligations.HeldPayloadsAreTheirRows : Prop :=
  ∀ (payload : List Byte) (s : Machine.State), s.released →
    (∀ (row : Instr) (least : Nat), heldRow payload = some row → row ≠ .restart .held →
      heldLength (byteAt payload 0).toNat = some least → least ≤ payload.length → 4 ≤ payload.length →
      exec row s = .next (settleEdges s (executeHeld payload s).record)) ∧
    (heldLength (byteAt payload 0).toNat = none → executeHeld payload s = ⟨s, .unknownCommand, []⟩) ∧
    (∀ least, heldLength (byteAt payload 0).toNat = some least → payload.length < least → 4 ≤ payload.length →
      executeHeld payload s = ⟨s, .badLength, []⟩) ∧
    (∀ least, heldLength (byteAt payload 0).toNat = some least → least ≤ payload.length → 4 ≤ payload.length →
      heldRow payload = none → executeHeld payload s = ⟨s, .badArgument, []⟩)

/-- ASSIGN takes an offer while UNASSIGNED; RELEASE ADDRESS gives the address back. -/
def Obligations.AddressIsTakenAndReleased : Prop :=
  ∀ s : Machine.State, s.released →
    (∀ mark offer : Byte, s.lrx.address = 0 → mark = 0 → 1 ≤ offer.toNat → offer.toNat ≤ 126 →
      exec (.assign mark offer) s = .next { s with
        lrx := { s.lrx with address := offer }, mge := { s.mge with answer := some (.assign true) } }) ∧
    (∀ mark offer : Byte, s.lrx.address = 0 → mark ≠ 0 ∨ offer.toNat = 0 ∨ 127 ≤ offer.toNat →
      exec (.assign mark offer) s = .next { s with mge := { s.mge with answer := some (.assign false) } }) ∧
    (∀ mark offer : Byte, s.lrx.address ≠ 0 → exec (.assign mark offer) s = .next s) ∧
    exec (.releaseAddress .held) s = .next (State.answered { s with lrx := { s.lrx with address := 0 } } .done) ∧
    exec (.releaseAddress .broadcast) s = .next { s with lrx := { s.lrx with address := 0 } }

/-! ### Tables -/

/-- The field-level checks, and a record that passed reads back byte for byte; unused and undefined ones read as zeros. -/
def Obligations.RecordsReadBackByteForByte : Prop :=
  (∀ r : BitVec 64,
    (decodeMapEntry r = .error .reservedField ↔ recordByte r 0 &&& 0xF8 ≠ 0) ∧
    (∀ e, decodeMapEntry r = .ok e → e.used = r.getLsbD 0 ∧
      e.bytes = if r.getLsbD 0 then recordBytes 8 r else List.replicate 8 0) ∧
    (∀ e, decodeMapEntry r = .ok e → r.getLsbD 0 = true →
      e.direction = (if r.getLsbD 1 then .produce else .consume) ∧ e.order = (if r.getLsbD 2 then .big else .little) ∧
      e.width = r.extractLsb' 8 8 ∧
      (r.extractLsb' 16 8 = 0 → e.format = .unsigned) ∧ (r.extractLsb' 16 8 = 1 → e.format = .signed) ∧
      (r.extractLsb' 16 8 = 2 → e.format = .float) ∧
      e.group = r.extractLsb' 24 8 ∧ e.offset = r.extractLsb' 32 8 ∧ e.target = r.extractLsb' 40 8 ∧
      e.source = r.extractLsb' 48 8 ∧ e.conversion = r.extractLsb' 56 8) ∧
    (∀ e, decodeMapEntry r = .ok e → r.getLsbD 0 = false → e = {
      used := false, direction := .consume, order := .little, width := 0, format := .unsigned, group := 0, offset := 0
      target := 0, source := 0, conversion := 0 }) ∧
    (∀ i, recordByte r i = r.extractLsb' (8 * i) 8) ∧
    recordBytes 8 r = [r.extractLsb' 0 8, r.extractLsb' 8 8, r.extractLsb' 16 8, r.extractLsb' 24 8, r.extractLsb' 32 8,
      r.extractLsb' 40 8, r.extractLsb' 48 8, r.extractLsb' 56 8] ∧
    (recordByte r 0 &&& 0xF8 = 0 → ((∃ e, decodeMapEntry r = .ok e) ↔ (r.getLsbD 0 = true →
      (recordByte r 1 = 1 ∨ recordByte r 1 = 2 ∨ recordByte r 1 = 4) ∧ (recordByte r 2).toNat ≤ 2 ∧
      (recordByte r 3).toNat ≤ 15 ∧ (recordByte r 4).toNat ≤ 239 ∧
      ((recordByte r 7).toNat ≤ 15 ∨ recordByte r 7 = 0xFF)))) ∧
    (∀ x, decodeMapEntry r = .error x → x = .reservedField ∨ x = .badArgument)) ∧
  (∀ r : BitVec 128,
    (decodeConvRecord r = .error .reservedField ↔ recordByte r 0 &&& 0xF8 ≠ 0) ∧
    (∀ c, decodeConvRecord r = .ok c → c.defined = r.getLsbD 0 ∧
      c.bytes = if r.getLsbD 0 then recordBytes 16 r else List.replicate 16 0) ∧
    (∀ c, decodeConvRecord r = .ok c → r.getLsbD 0 = true →
      c.policy = (if r.getLsbD 1 then .lowLimit else .hold) ∧ c.shift = r.extractLsb' 8 8 ∧ c.gain = r.extractLsb' 16 16 ∧
      c.offset = r.extractLsb' 32 32 ∧ c.low = r.extractLsb' 64 32 ∧ c.high = r.extractLsb' 96 32) ∧
    (∀ c, decodeConvRecord r = .ok c → r.getLsbD 0 = false → c = {
      defined := false, policy := .hold, shift := 0, gain := 0, offset := 0, low := 0, high := 0 }) ∧
    (∀ i, recordByte r i = r.extractLsb' (8 * i) 8) ∧
    recordBytes 16 r = (recordBytes 8 (r.extractLsb' 0 64)) ++ recordBytes 8 (r.extractLsb' 64 64) ∧
    (recordByte r 0 &&& 0xF8 = 0 → ((∃ c, decodeConvRecord r = .ok c) ↔ (r.getLsbD 0 = true →
      r.getLsbD 2 = false ∧ (recordByte r 1).toNat ≤ 31 ∧ (r.extractLsb' 64 32).toInt ≤ (r.extractLsb' 96 32).toInt))) ∧
    (∀ x, decodeConvRecord r = .error x → x = .reservedField ∨ x = .badArgument))

/-- WRITE MAP ENTRY and WRITE CONVERSION RECORD: the tests in their order, and the one staged record replaced;
READ MAP ENTRY and READ CONVERSION RECORD: the record of the selected bank. -/
def Obligations.RecordsAreStagedAndRead : Prop :=
  ∀ s : Machine.State, s.released →
    let held := fun target : LoadTarget => ∃ (k : Fin 2) (d : Descriptor), (s.lch[k].state = .active ∨ s.lch[k].state = .waiting) ∧
      s.lch[k].descriptor = some d ∧ d.target = target
    (∀ (index : Byte) (r : BitVec 64),
      (64 ≤ index.toNat → exec (.writeMapEntry .held index r) s = .next (s.answered .badArgument)) ∧
      (index.toNat < 64 → held .map → exec (.writeMapEntry .held index r) s = .next (s.answered .busy)) ∧
      (∀ x, index.toNat < 64 → ¬held .map → decodeMapEntry r = .error x →
        exec (.writeMapEntry .held index r) s = .next (s.answered x)) ∧
      (∀ e, index.toNat < 64 → ¬held .map → decodeMapEntry r = .ok e →
        ∃ m, exec (.writeMapEntry .held index r) s = .next (State.answered { s with map := m } .done) ∧
          m.stagedMap = s.map.stagedMap.setIfInBounds index.toNat e ∧ m.activeMap = s.map.activeMap ∧
          m = { s.map with mapA := m.mapA, mapB := m.mapB })) ∧
    (∀ (index : Byte) (r : BitVec 128),
      (16 ≤ index.toNat → exec (.writeConversionRecord .held index r) s = .next (s.answered .badArgument)) ∧
      (index.toNat < 16 → held .conversion →
        exec (.writeConversionRecord .held index r) s = .next (s.answered .busy)) ∧
      (∀ x, index.toNat < 16 → ¬held .conversion → decodeConvRecord r = .error x →
        exec (.writeConversionRecord .held index r) s = .next (s.answered x)) ∧
      (∀ c, index.toNat < 16 → ¬held .conversion → decodeConvRecord r = .ok c →
        ∃ m, exec (.writeConversionRecord .held index r) s = .next (State.answered { s with map := m } .done) ∧
          m.stagedConv = s.map.stagedConv.setIfInBounds index.toNat c ∧ m.activeConv = s.map.activeConv ∧
          m = { s.map with convA := m.convA, convB := m.convB })) ∧
    (∀ (index : Byte) (i : Fin 64), index.toNat = i.val →
      exec (.readMapEntry .held index 0) s = .next (s.answered .done s.map.activeMap[i].bytes) ∧
      exec (.readMapEntry .held index 1) s = .next (s.answered .done s.map.stagedMap[i].bytes)) ∧
    (∀ (index : Byte) (i : Fin 16), index.toNat = i.val →
      exec (.readConversionRecord .held index 0) s = .next (s.answered .done s.map.activeConv[i].bytes) ∧
      exec (.readConversionRecord .held index 1) s = .next (s.answered .done s.map.stagedConv[i].bytes)) ∧
    (∀ index selector : Byte,
      (64 ≤ index.toNat ∨ 2 ≤ selector.toNat →
        exec (.readMapEntry .held index selector) s = .next (s.answered .badArgument)) ∧
      (16 ≤ index.toNat ∨ 2 ≤ selector.toNat →
        exec (.readConversionRecord .held index selector) s = .next (s.answered .badArgument)))

/-- Validation passes exactly when every used staged entry passes C1 to C7; otherwise it names the lowest failing entry, and the
lowest check that this entry fails, by its number. -/
def Obligations.ValidationAppliesTheSevenChecks : Prop :=
  ∀ m : MapUnit,
    let e := fun i : Fin 64 => m.stagedMap[i]
    let stop := fun i : Fin 64 => (e i).offset.toNat + (e i).width.toNat
    let c1 := fun i : Fin 64 => stop i ≤ 240
    let c2 := fun i : Fin 64 => (e i).format = .float → (e i).direction = .consume ∧ (e i).width = 4
    let c3 := fun i : Fin 64 => (e i).direction = .consume → (e i).target.toNat ≤ 5
    let c4 := fun i : Fin 64 => (e i).direction = .consume →
      (e i).conversion = 0xFF ∨ ∃ k : Fin 16, (e i).conversion.toNat = k.val ∧ m.stagedConv[k].defined = true
    let c5 := fun i : Fin 64 => (e i).direction = .produce →
      (e i).format = .unsigned ∧
      (((e i).target = 0x00 ∧ (e i).source = 0 ∧ ((e i).width = 1 ∨ (e i).width = 2 ∨ (e i).width = 4)) ∨
        (((e i).target = 0x01 ∨ (e i).target = 0x08) ∧ (e i).source.toNat ≤ 5 ∧ (e i).width = 2) ∨
        (((e i).target = 0x02 ∨ (e i).target = 0x03) ∧ (e i).source.toNat ≤ 5 ∧ (e i).width = 1) ∨
        (((e i).target = 0x04 ∨ (e i).target = 0x05 ∨ (e i).target = 0x09) ∧ (e i).source = 0 ∧ (e i).width = 1) ∨
        ((e i).target = 0x06 ∧ (e i).source = 0 ∧ (e i).width = 2) ∨
        ((e i).target = 0x07 ∧ (e i).source.toNat ≤ 1 ∧ (e i).width = 2))
    let c6 := fun i : Fin 64 => (e i).direction = .consume →
      ∀ j : Fin 64, j < i → (e j).used = true → (e j).direction = .consume → (e j).group = (e i).group →
        (e j).target ≠ (e i).target
    let c7 := fun i : Fin 64 => (e i).direction = .produce →
      ∀ j : Fin 64, j < i → (e j).used = true → (e j).direction = .produce → (e j).group = (e i).group →
        stop j ≤ (e i).offset.toNat ∨ stop i ≤ (e j).offset.toNat
    let passes := fun i : Fin 64 => c1 i ∧ c2 i ∧ c3 i ∧ c4 i ∧ c5 i ∧ c6 i ∧ c7 i
    (m.validate = none ↔ ∀ i : Fin 64, (e i).used = true → passes i) ∧
    (∀ index check : Byte, m.validate = some (index, check) → ∃ i : Fin 64, index.toNat = i.val ∧ (e i).used = true ∧
      (∀ j : Fin 64, j < i → (e j).used = true → passes j) ∧
      ((check = 1 ∧ ¬c1 i) ∨
        (check = 2 ∧ c1 i ∧ ¬c2 i) ∨
        (check = 3 ∧ c1 i ∧ c2 i ∧ ¬c3 i) ∨
        (check = 4 ∧ c1 i ∧ c2 i ∧ c3 i ∧ ¬c4 i) ∨
        (check = 5 ∧ c1 i ∧ c2 i ∧ c3 i ∧ c4 i ∧ ¬c5 i) ∨
        (check = 6 ∧ c1 i ∧ c2 i ∧ c3 i ∧ c4 i ∧ c5 i ∧ ¬c6 i) ∨
        (check = 7 ∧ c1 i ∧ c2 i ∧ c3 i ∧ c4 i ∧ c5 i ∧ c6 i ∧ ¬c7 i)))

/-- COMMIT: refused BUSY, rejected with its reply and report, or successful with the banks exchanged and copied;
a failed broadcast commit sets COMMIT_FAILED. -/
def Obligations.CommitSwapsOrReports : Prop :=
  ∀ s : Machine.State, s.released →
    let held := ∃ k : Fin 2, s.lch[k].state = .active ∨ s.lch[k].state = .waiting
    (held →
      exec (.commit .held) s = .next (State.answered { s with map := { s.map with report := .busy .command } } .busy) ∧
      exec (.commit .broadcast) s = .next { s with
        map := { s.map with report := .busy .broadcast }, mge := { s.mge with flags := s.mge.flags ||| 0x1000 } }) ∧
    (∀ entry check : Byte, ¬held → s.map.validate = some (entry, check) →
      exec (.commit .held) s = .next (State.answered { s with
        map := { s.map with report := .rejected .command entry check } } .commitRejected [entry, check]) ∧
      exec (.commit .broadcast) s = .next { s with
        map := { s.map with report := .rejected .broadcast entry check }
        mge := { s.mge with flags := s.mge.flags ||| 0x1000 } }) ∧
    (¬held → s.map.validate = none →
      let swapped := fun o : Origin => { s.map with
        role := match s.map.role with | .a => .b | .b => .a
        mapA := s.map.stagedMap, mapB := s.map.stagedMap
        convA := s.map.stagedConv, convB := s.map.stagedConv
        report := .done o }
      exec (.commit .held) s = .next (State.answered { s with map := swapped .command } .done
        [match s.map.role with | .a => 1 | .b => 0]) ∧
      exec (.commit .broadcast) s = .next { s with map := swapped .broadcast })

/-- DISCARD STAGED copies the active banks over the staged ones, and is refused while a load channel holds a bank. -/
def Obligations.DiscardStagedCopiesTheActiveBanks : Prop :=
  ∀ s : Machine.State, s.released →
    ((s.lch[0].state = .active ∨ s.lch[0].state = .waiting ∨ s.lch[1].state = .active ∨ s.lch[1].state = .waiting) →
      exec (.discardStaged .held) s = .next (s.answered .busy)) ∧
    (¬(s.lch[0].state = .active ∨ s.lch[0].state = .waiting ∨ s.lch[1].state = .active ∨ s.lch[1].state = .waiting) →
      exec (.discardStaged .held) s = .next (State.answered { s with map := { s.map with
        mapA := s.map.activeMap, mapB := s.map.activeMap, convA := s.map.activeConv, convB := s.map.activeConv } } .done)) ∧
    exec (.discardStaged .broadcast) s = .next s

/-- The telegram plan: the used active entries of the group that fit, by ascending offset and then index; in sound banks the
holding list it opens has one pending write for a channel, each for a channel that exists. -/
def Obligations.PlanHoldsTheFittingEntriesInOrder : Prop :=
  (∀ (m : MapUnit) (group : Byte) (len : Nat),
    (∀ x : PlanEntry, x ∈ m.buildPlan group len ↔ ∃ i : Fin 64, x.index = i.val ∧ x.entry = m.activeMap[i] ∧
      x.entry.used = true ∧ x.entry.group = group ∧ x.entry.offset.toNat + x.entry.width.toNat ≤ len) ∧
    (m.buildPlan group len).Pairwise fun a b => a.entry.offset.toNat < b.entry.offset.toNat ∨
      (a.entry.offset = b.entry.offset ∧ a.index < b.index)) ∧
  (∀ (s seen : Machine.State) (group cycle : Byte) (len : Nat), BanksSound s →
    let holding := (s.openPlan seen group cycle len).map.holding
    (holding.map (·.channel)).Nodup ∧ (∀ w ∈ holding, w.channel.toNat ≤ 5 ∧ w.raw = [] ∧ w.cycle = cycle) ∧
    holding.length ≤ 6)

/-! ### Load channels -/

/-- LOAD SETUP, LOAD START, LOAD CANCEL and LOAD STATUS: the tests in their order, and the load channel's new record. -/
def Obligations.LoadCommandsMoveTheLoadChannel : Prop :=
  ∀ s : Machine.State, s.released →
    (∀ channel : Byte, 2 ≤ channel.toNat →
      (∀ r, exec (.loadSetup .held channel r) s = .next (s.answered .badArgument)) ∧
      exec (.loadStart .held channel) s = .next (s.answered .badArgument) ∧
      exec (.loadCancel .held channel) s = .next (s.answered .badArgument) ∧
      exec (.loadStatus .held channel) s = .next (s.answered .badArgument)) ∧
    (∀ (channel : Byte) (k : Fin 2), channel.toNat = k.val →
      let l := s.lch[k]
      let put := fun x : LoadChannel => State.answered { s with lch := s.lch.set k x } .done
      (∀ r, l.state = .active ∨ l.state = .waiting →
        exec (.loadSetup .held channel r) s = .next (s.answered .wrongState)) ∧
      (∀ r x, l.state ≠ .active → l.state ≠ .waiting → decodeDescriptor k r = .error x →
        exec (.loadSetup .held channel r) s = .next (s.answered x)) ∧
      (∀ r d, l.state ≠ .active → l.state ≠ .waiting → decodeDescriptor k r = .ok d →
        exec (.loadSetup .held channel r) s =
          .next (put { l with descriptor := some d, state := .ready, next := d.first, error := .none })) ∧
      (l.state ≠ .ready → exec (.loadStart .held channel) s = .next (s.answered .wrongState)) ∧
      let behindLc0 := k = 1 ∧ s.lch[0].state = .active ∧ ∃ d, s.lch[0].descriptor = some d ∧ d.chain = true
      let other := if k = 0 then s.lch[1] else s.lch[0]
      let sharesARecord := other.state = .active ∧ ∃ d o, l.descriptor = some d ∧ other.descriptor = some o ∧
        o.target = d.target ∧ d.first < o.first + o.count ∧ o.first < d.first + d.count
      (l.state = .ready → behindLc0 → exec (.loadStart .held channel) s = .next (put { l with state := .waiting })) ∧
      (l.state = .ready → ¬behindLc0 → sharesARecord → exec (.loadStart .held channel) s = .next (s.answered .busy)) ∧
      (l.state = .ready → ¬behindLc0 → ¬sharesARecord →
        exec (.loadStart .held channel) s = .next (put { l with state := .active })) ∧
      (l.state ≠ .ready → l.state ≠ .active → l.state ≠ .waiting →
        exec (.loadCancel .held channel) s = .next (s.answered .wrongState)) ∧
      (l.state = .ready ∨ l.state = .active ∨ l.state = .waiting →
        exec (.loadCancel .held channel) s = .next (State.answered { s with
          lch := Vector.ofFn fun j : Fin 2 =>
            if j = k then { l with state := .cancelled }
            else if k = 0 ∧ s.lch[j].state = .waiting then { s.lch[j] with state := .cancelled }
            else s.lch[j] } .done)) ∧
      exec (.loadStatus .held channel) s = .next (s.answered .done
        [match l.state with
         | .idle => 0
         | .ready => 1
         | .active => 2
         | .waiting => 3
         | .complete => 4
         | .cancelled => 5
         | .terminated => 6,
         BitVec.ofNat 8 l.next,
         match l.error with
         | .none => 0
         | .sequence => 1
         | .record => 2])) ∧
    (∀ (k : Fin 2) (r : BitVec 64),
      (decodeDescriptor k r = .error .reservedField ↔
        recordByte r 0 &&& 0xF8 ≠ 0 ∨ recordByte r 6 ≠ 0 ∨ recordByte r 7 ≠ 0) ∧
      (∀ d, decodeDescriptor k r = .ok d →
        d.target = (if r.getLsbD 0 then .conversion else .map) ∧ d.chain = r.getLsbD 1 ∧ d.autoCommit = r.getLsbD 2 ∧
        d.first = (recordByte r 1).toNat ∧ d.count = (recordByte r 2).toNat ∧ d.group = recordByte r 3 ∧
        d.offset = (recordByte r 4).toNat ∧ d.perChunk = (recordByte r 5).toNat ∧
        1 ≤ d.count ∧ d.group.toNat ≤ 15 ∧ d.offset ≤ 239 ∧ 1 ≤ d.perChunk ∧
        d.first + d.count ≤ (match d.target with | .map => 64 | .conversion => 16) ∧
        d.offset + 1 + d.perChunk * (match d.target with | .map => 8 | .conversion => 16) ≤ 240 ∧
        (k = 1 → d.chain = false)) ∧
      (recordByte r 0 &&& 0xF8 = 0 → recordByte r 6 = 0 → recordByte r 7 = 0 →
        let first := (recordByte r 1).toNat
        let count := (recordByte r 2).toNat
        let offset := (recordByte r 4).toNat
        let perChunk := (recordByte r 5).toNat
        let fields := 1 ≤ count ∧ (recordByte r 3).toNat ≤ 15 ∧ offset ≤ 239 ∧ 1 ≤ perChunk ∧
          first + count ≤ (if r.getLsbD 0 then 16 else 64) ∧
          offset + 1 + perChunk * (if r.getLsbD 0 then 16 else 8) ≤ 240 ∧ (k = 1 → r.getLsbD 1 = false)
        (fields → ∃ d, decodeDescriptor k r = .ok d) ∧
        (¬fields → decodeDescriptor k r = .error .badArgument)))

/-- A chunk judged by its index: repeated, ahead, or expected; the expected chunk's records go through the field-level check into
the staged bank up to the first that fails, the end of the chunk or the end of the load. A load channel without a capture is left
as it is, and so is one that is no longer ACTIVE (log 19). -/
def Obligations.ChunksAreJudgedByTheirIndex : Prop :=
  (∀ (s : Machine.State) (k : Fin 2), s.lch[k].capture = none ∨ s.lch[k].state ≠ .active → s.judge k = s) ∧
  (∀ (s : Machine.State) (k : Fin 2) (d : Descriptor) (index : Byte) (records : List Byte),
    s.lch[k].descriptor = some d → s.lch[k].state = .active → s.lch[k].capture = some (index :: records) →
    (index.toNat < s.lch[k].next → s.judge k = s) ∧
    (s.lch[k].next < index.toNat →
      s.judge k = { s with lch := s.lch.set k { s.lch[k] with state := .terminated, error := .sequence } }) ∧
    (index.toNat = s.lch[k].next → ∃ w : Written, w = writeRecords d d.perChunk records s.lch[k].next s.map ∧
      (w.ok = false → s.judge k = { s with
        map := w.map
        lch := s.lch.set k { s.lch[k] with state := .terminated, error := .record, next := w.next } }) ∧
      (w.ok = true → w.next = d.first + d.count → s.judge k = { s with
        map := w.map, lch := s.lch.set k { s.lch[k] with state := .complete, next := w.next } }) ∧
      (w.ok = true → w.next ≠ d.first + d.count → s.judge k = { s with
        map := w.map, lch := s.lch.set k { s.lch[k] with next := w.next } }))) ∧
  (∀ (d : Descriptor) (j e : Nat) (bytes : List Byte) (m : MapUnit), d.target = .map → e < d.limit → d.limit ≤ 64 →
    let r : BitVec 64 := BitVec.ofNat 64 (leNat (bytes.take 8))
    (∀ x, decodeMapEntry r = .error x → writeRecords d (j + 1) bytes e m = ⟨m, e, false⟩) ∧
    (∀ x, decodeMapEntry r = .ok x → ∃ m' : MapUnit, m'.stagedMap = m.stagedMap.setIfInBounds e x ∧
      m'.activeMap = m.activeMap ∧ m' = { m with mapA := m'.mapA, mapB := m'.mapB } ∧
      writeRecords d (j + 1) bytes e m = writeRecords d j (bytes.drop 8) (e + 1) m')) ∧
  (∀ (d : Descriptor) (j e : Nat) (bytes : List Byte) (m : MapUnit), d.target = .conversion → e < d.limit → d.limit ≤ 16 →
    let r : BitVec 128 := BitVec.ofNat 128 (leNat (bytes.take 16))
    (∀ x, decodeConvRecord r = .error x → writeRecords d (j + 1) bytes e m = ⟨m, e, false⟩) ∧
    (∀ x, decodeConvRecord r = .ok x → ∃ m' : MapUnit, m'.stagedConv = m.stagedConv.setIfInBounds e x ∧
      m'.activeConv = m.activeConv ∧ m' = { m with convA := m'.convA, convB := m'.convB } ∧
      writeRecords d (j + 1) bytes e m = writeRecords d j (bytes.drop 16) (e + 1) m')) ∧
  (∀ (d : Descriptor) (e : Nat) (bytes : List Byte) (m : MapUnit), writeRecords d 0 bytes e m = ⟨m, e, true⟩) ∧
  (∀ (d : Descriptor) (j e : Nat) (bytes : List Byte) (m : MapUnit), d.limit ≤ e → writeRecords d j bytes e m = ⟨m, e, true⟩)

/-! ### Conversion and rings -/

/-- The field value: integers by byte order and sign, and single-precision patterns cut toward zero or refused as INVALID. -/
def Obligations.FieldValueReadsTheFormat : Prop :=
  (∀ b0 : Byte, ∀ order, fieldValue .unsigned order [b0] = some b0.toNat ∧ fieldValue .signed order [b0] = some b0.toInt) ∧
  (∀ b0 b1 : Byte,
    fieldValue .unsigned .little [b0, b1] = some (b1 ++ b0).toNat ∧ fieldValue .unsigned .big [b0, b1] = some (b0 ++ b1).toNat ∧
    fieldValue .signed .little [b0, b1] = some (b1 ++ b0).toInt ∧ fieldValue .signed .big [b0, b1] = some (b0 ++ b1).toInt) ∧
  (∀ b0 b1 b2 b3 : Byte, ∀ format,
    fieldValue format .big [b0, b1, b2, b3] = fieldValue format .little [b3, b2, b1, b0] ∧
    fieldValue .unsigned .little [b0, b1, b2, b3] = some (b3 ++ b2 ++ b1 ++ b0).toNat ∧
    fieldValue .signed .little [b0, b1, b2, b3] = some (b3 ++ b2 ++ b1 ++ b0).toInt ∧
    fieldValue .float .little [b0, b1, b2, b3] = floatValue (b3 ++ b2 ++ b1 ++ b0).toNat) ∧
  (∀ (sign : Bool) (e f : Nat), e < 256 → f < 8388608 →
    let v := (if sign then 2 ^ 31 else 0) + e * 2 ^ 23 + f
    (e < 127 → floatValue v = some 0) ∧
    (127 ≤ e → e ≤ 157 → ∃ m : Nat, m * 2 ^ 23 ≤ (2 ^ 23 + f) * 2 ^ (e - 127) ∧
      (2 ^ 23 + f) * 2 ^ (e - 127) < (m + 1) * 2 ^ 23 ∧ floatValue v = some (if sign then -(m : Int) else m)) ∧
    (e = 158 → sign = true → f = 0 → floatValue v = some (-2147483648)) ∧
    (158 ≤ e → ¬(e = 158 ∧ sign = true ∧ f = 0) → floatValue v = none))

/-- Scaling by gain, shift and offset, exact and rounding toward minus infinity, and the comparison with the limits. -/
def Obligations.ScalingRoundsDownAndCompares : Prop :=
  ∀ (c : ConvRecord) (x : Int),
    (c.scale x - c.offset.toInt) * 2 ^ c.shift.toNat ≤ x * c.gain.toInt ∧
    x * c.gain.toInt < (c.scale x - c.offset.toInt + 1) * 2 ^ c.shift.toNat ∧
    (∀ y : Int,
      (y < c.low.toInt → c.compare y = .below) ∧
      (c.low.toInt ≤ y → c.high.toInt < y → c.compare y = .above) ∧
      (c.low.toInt ≤ y → y ≤ c.high.toInt → c.compare y = .within)) ∧
    (∀ mask : ExcSet, (convertNumber mask (some c) x).code = c.compare (c.scale x) ∧
      (convertNumber mask (some c) x).raised = if c.compare (c.scale x) = .within then none else some .range) ∧
    (c.low.toInt ≤ c.scale x → c.scale x ≤ c.high.toInt → ∀ mask : ExcSet,
      (convertNumber mask (some c) x).outcome = .slot .valid (some (c.scale x))) ∧
    (∀ r d, decodeConvRecord r = .ok d → d.low.toInt ≤ d.high.toInt) ∧
    (∀ (format : Format) (order : ByteOrder) (raw : List Byte) (v : Int), raw.length ≤ 4 →
      fieldValue format order raw = some v → -2147483648 ≤ v ∧ v ≤ 4294967295) ∧
    (c.gain = 3 → c.shift = 2 → c.offset = 100 →
      c.scale 10 = 107 ∧ c.scale (-10) = 92 ∧ c.scale 8000 = 6100 ∧ c.scale (-1) = 99) ∧
    (c.gain = -1 → c.shift = 0 → c.offset = 0 → c.scale (-2147483648) = 2147483648 ∧ c.high.toInt < 2147483648)

/-- The outcomes of a conversion: the slot or fault, its tag, duty and code; and what becomes of it at the channel: its own sticky flag,
the push, the fault. -/
def Obligations.ConversionOutcomesFollowTheMask : Prop :=
  (∀ (mask : ExcSet) (x : Int), convert mask none (some x) =
    ⟨none, .within, .slot .valid (some (if 2147483647 < x then 2147483647 else x))⟩) ∧
  (∀ (mask : ExcSet) (c : ConvRecord) (x : Int),
    (c.compare (c.scale x) = .within → convert mask (some c) (some x) = ⟨none, .within, .slot .valid (some (c.scale x))⟩) ∧
    (c.compare (c.scale x) = .below → convert mask (some c) (some x) =
      ⟨some .range, .below, if mask.range then .slot .clamped (some c.low.toInt) else .fault .range⟩) ∧
    (c.compare (c.scale x) = .above → convert mask (some c) (some x) =
      ⟨some .range, .above, if mask.range then .slot .clamped (some c.high.toInt) else .fault .range⟩)) ∧
  (∀ (mask : ExcSet) (record : Option ConvRecord), mask.invalid = false →
    convert mask record none = ⟨some .invalid, .unordered, .fault .invalid⟩) ∧
  (∀ mask : ExcSet, mask.invalid = true → convert mask none none = ⟨some .invalid, .unordered, .slot .subst none⟩) ∧
  (∀ (mask : ExcSet) (c : ConvRecord), mask.invalid = true → convert mask (some c) none =
    ⟨some .invalid, .unordered, .slot .subst (if c.policy = .lowLimit then some c.low.toInt else none)⟩) ∧
  (∀ (s : Machine.State) (n : Fin 6) (record : Option ConvRecord) (x : Option Int) (origin : SlotOrigin),
    (s.chn[n].state = .disabled ∨ s.chn[n].state = .fault → s.feed n record x origin = s) ∧
    (s.chn[n].state = .armed ∨ s.chn[n].state = .running →
      let r := convert s.chn[n].mask record x
      let sticky := s.chn[n].sticky
      let flagged := match r.raised with
        | some .invalid => { s with chn := s.chn.set n { s.chn[n] with
            sticky := { invalid := true, range := sticky.range, overrun := sticky.overrun, stale := sticky.stale } } }
        | some .range => { s with chn := s.chn.set n { s.chn[n] with
            sticky := { invalid := sticky.invalid, range := true, overrun := sticky.overrun, stale := sticky.stale } } }
        | _ => s
      s.feed n record x origin = match r.outcome with
        | .slot tag duty => flagged.push n ⟨tag, duty, r.code, origin⟩
        | .fault cause => flagged.enterFault n cause)) ∧
  (∀ (s : Machine.State) (n : Fin 6) (cause : Exc), s.enterFault n cause = { s with
    chn := s.chn.set n { s.chn[n] with
      state := .fault, cause := some cause, duty := 0, code := .within, saturated := false }
    rings := s.rings.set n { s.rings[n] with slots := [] }
    mge := { s.mge with flags := s.mge.flags ||| (1#13 <<< n.val) } })

/-- PUSH SETPOINT: the tests in their order, the conversion and push of its value, and the reply. -/
def Obligations.PushSetpointConvertsAndPushes : Prop :=
  [Code.below, .within, .above, .unordered].map (·.code) = [0, 1, 2, 3] ∧
  [ChannelState.disabled, .armed, .running, .fault].map (·.code) = [0, 1, 2, 3] ∧
  ∀ (s : Machine.State) (channel format conversion : Byte) (value : Word), s.released →
    (6 ≤ channel.toNat ∨ 5 ≤ format.toNat ∨ (16 ≤ conversion.toNat ∧ conversion ≠ 0xFF) ∨
        (∃ k : Fin 16, conversion.toNat = k.val ∧ s.map.activeConv[k].defined = false) →
      exec (.pushSetpoint .held channel format conversion value) s = .next (s.answered .badArgument)) ∧
    (∀ (n : Fin 6) (record : Option ConvRecord) (x : Option Int), channel.toNat = n.val →
      ((format = 0 ∧ x = some (value.toNat % 65536 : Nat)) ∨
        (format = 1 ∧ x = some (BitVec.ofNat 16 value.toNat).toInt) ∨
        (format = 2 ∧ x = some value.toNat) ∨ (format = 3 ∧ x = some value.toInt) ∨
        (format = 4 ∧ x = floatValue value.toNat)) →
      ((conversion = 0xFF ∧ record = none) ∨
        ∃ k : Fin 16, conversion.toNat = k.val ∧ s.map.activeConv[k].defined = true ∧ record = some s.map.activeConv[k]) →
      (s.chn[n].state = .disabled ∨ s.chn[n].state = .fault →
        exec (.pushSetpoint .held channel format conversion value) s = .next (s.answered .wrongState)) ∧
      (s.chn[n].state = .armed ∨ s.chn[n].state = .running →
        let r := convert s.chn[n].mask record x
        let u := s.feed n record x .management
        exec (.pushSetpoint .held channel format conversion value) s = .next (settleEdges s (u.answered .done
          [match r.outcome with
           | .slot .valid _ => 1
           | .slot .clamped _ => 2
           | .slot .subst _ => 3
           | .fault _ => 0,
           BitVec.ofNat 8 r.code.code, BitVec.ofNat 8 u.chn[n].state.code, BitVec.ofNat 8 u.rings[n].slots.length]))))

/-- A push to a full QUEUED ring with OVERRUN masked, and any push to a LATEST ring: the slot kept, the one lost, the flag raised;
a run of pushes to the full ring keeps the newest slots in push order; an INVALID value with the policy HOLD in a LATEST ring
leaves the channel repeating its duty at the boundary. And a push to a QUEUED ring with room, and one to a full ring with OVERRUN
unmasked: discarded, the channel faulted, every later value discarded before conversion. -/
def Obligations.PushFillsReplacesOrOverruns : Prop :=
  (∀ (s : Machine.State) (n : Fin 6) (slot : Slot),
      (s.rings[n].mode = .queued → s.rings[n].slots.length = s.rings[n].depth → 1 ≤ s.rings[n].depth →
        s.chn[n].mask.overrun = true →
        s.push n slot = { s with
          chn := s.chn.set n { s.chn[n] with sticky := { s.chn[n].sticky with overrun := true } }
          rings := s.rings.set n { s.rings[n] with slots := s.rings[n].slots.drop 1 ++ [slot] } } ∧
        (s.push n slot).rings[n].slots.length = s.rings[n].depth ∧
        ∀ more : List Slot, (more.foldl (fun u x => u.push n x) s).rings[n].slots =
          (s.rings[n].slots ++ more).drop more.length) ∧
      (s.rings[n].mode = .latest →
        s.push n slot = { s with rings := s.rings.set n { s.rings[n] with slots := [slot] } } ∧
        (slot.tag = .subst → slot.duty = none → s.chn[n].state = .running → s.chn[n].firstPending = none → ∀ period,
          ((s.push n slot).channelBoundary period n).chn[n].duty = min s.chn[n].duty period))) ∧
  (∀ (s : Machine.State) (n : Fin 6) (slot : Slot), s.rings[n].mode = .queued →
      (s.rings[n].slots.length < s.rings[n].depth →
        s.push n slot = { s with rings := s.rings.set n { s.rings[n] with slots := s.rings[n].slots ++ [slot] } }) ∧
      (s.rings[n].depth ≤ s.rings[n].slots.length → s.chn[n].mask.overrun = false →
        s.push n slot = { s with
          chn := s.chn.set n { s.chn[n] with
            sticky := { s.chn[n].sticky with overrun := true }
            state := .fault, cause := some .overrun, duty := 0, code := .within, saturated := false }
          rings := s.rings.set n { s.rings[n] with slots := [] }
          mge := { s.mge with flags := s.mge.flags ||| (1#13 <<< n.val) } } ∧
        ∀ record x origin, (s.push n slot).feed n record x origin = s.push n slot))

/-- An ARMED channel at a boundary: it waits at an empty ring without an exception, whatever STALE's mask bit and flag, takes the
first slot it finds into RUNNING, and a pending exception is tested before the pop. -/
def Obligations.ArmedChannelWaitsForItsFirstSlot : Prop :=
  ∀ (s : Machine.State) (n : Fin 6) (period : Nat), s.chn[n].state = .armed → s.chn[n].duty = 0 →
    (s.chn[n].firstPending = none → s.rings[n].slots = [] →
      s.channelBoundary period n =
        { s with chn := s.chn.set n { s.chn[n] with deadTime := s.out[n].stagedDeadTime } } ∧
      ∀ k, (Nat.repeat (fun u => u.channelBoundary period n) k s).chn[n].state = .armed ∧
        (Nat.repeat (fun u => u.channelBoundary period n) k s).chn[n].duty = 0 ∧
        (Nat.repeat (fun u => u.channelBoundary period n) k s).chn[n].sticky = s.chn[n].sticky) ∧
    (s.chn[n].firstPending = none → ∀ slot rest, s.rings[n].slots = slot :: rest →
      (s.channelBoundary period n).chn[n].state = .running ∧ (s.channelBoundary period n).rings[n].slots = rest ∧
      (s.channelBoundary period n).chn[n].sticky = s.chn[n].sticky) ∧
    (∀ e, s.chn[n].firstPending = some e →
      (s.channelBoundary period n).chn[n].state = .fault ∧ (s.channelBoundary period n).chn[n].cause = some e ∧
      (s.channelBoundary period n).rings[n].slots = [])

/-! ### The drive line -/

/-- The check value: one bit, the bits of a character in order, and the two check characters. -/
def Obligations.CheckValueIsComputedBitByBit : Prop :=
  (∀ (acc : Half) (b : Bool) (i : Nat), i < 16 →
    (checkBit acc b).getLsbD i =
      ((if i = 0 then false else acc.getLsbD (i - 1)) ^^
        ((acc.getLsbD 15 ^^ b) && (decide (i = 12) || decide (i = 5) || decide (i = 0))))) ∧
  (∀ (acc : Half) (d : Byte), checkByte acc d =
    ([d.getLsbD 0, d.getLsbD 1, d.getLsbD 2, d.getLsbD 3, d.getLsbD 4, d.getLsbD 5, d.getLsbD 6, d.getLsbD 7]).foldl checkBit acc) ∧
  (∀ (acc : Half) (ds : List Byte) (d : Byte), checkBytes acc [] = acc ∧
    checkBytes acc (ds ++ [d]) = checkByte (checkBytes acc ds) d) ∧
  (∀ (v : Half) (i : Nat), i < 8 → (highByte v).getLsbD i = v.getLsbD (i + 8) ∧ (lowByte v).getLsbD i = v.getLsbD i) ∧
  (∀ (c : LineChar) (s : Machine.State) (time : Nat), s.lrx.parser = .idle → c.marker = true → c.time = time →
    (s.parse c true).lrx.acc = checkByte 0xFFFF c.data)

/-- The receiver's events, each in its state; in other states they have no effect (log 3). A false start leaves the gap timer. -/
def Obligations.ReceiverMovesThroughItsStates : Prop :=
  ∀ s : Machine.State, s.released →
    (s.lrx.rx = .waitIdle → exec .lineIdle s = .next { s with
      lrx := { s.lrx with rx := .ready }, pins := { s.pins with rxi := true } }) ∧
    (s.lrx.rx ≠ .waitIdle → exec .lineIdle s = .next s) ∧
    (s.lrx.rx = .ready → exec .startBitEdge s = .next { s with
      lrx := { s.lrx with rx := .receiving false }, pins := { s.pins with rxi := false } }) ∧
    (s.lrx.rx ≠ .ready → exec .startBitEdge s = .next s) ∧
    (s.lrx.rx = .receiving false →
      exec (.startBitSample true) s = .next { s with
        lrx := { s.lrx with rx := .ready }, pins := { s.pins with rxi := true } } ∧
      exec (.startBitSample false) s = .next { s with
        lrx := { s.lrx with rx := .receiving true, gap := none }, pins := { s.pins with rxi := false } }) ∧
    (s.lrx.rx ≠ .receiving false → ∀ level, exec (.startBitSample level) s = .next s) ∧
    (s.lrx.rx ≠ .receiving true → ∀ data marker stop time, exec (.characterReceived data marker stop time) s = .next s) ∧
    (s.lrx.rx = .receiving true → ∀ data marker stop time, ∃ u,
      exec (.characterReceived data marker stop time) s = .next u ∧ u.lrx.rx = if stop then .ready else .waitIdle)

/-- A character taken in IDLE and in SKIP, by its marker bit and framing. -/
def Obligations.CharactersBetweenTelegrams : Prop :=
  ∀ (s : Machine.State) (data : Byte) (time : Nat), s.released → s.lrx.rx = .receiving true →
    let good := s.afterStopBit true
    let bad := s.afterStopBit false
    let c : LineChar := { data := data, marker := true, time := time }
    (s.lrx.parser = .idle ∨ s.lrx.parser = .skip →
      exec (.characterReceived data true true time) s = .next { good with
        lrx := { good.lrx with parser := .header data none, acc := checkByte 0xFFFF data, gap := some time }
        fwd := { s.fwd with state := .staging, stage := [c], changed := false, acc := 0xFFFF } } ∧
      exec (.characterReceived data true false time) s = .next { bad.countError .framing with
        lrx := { (bad.countError .framing).lrx with parser := .skip } } ∧
      exec (.characterReceived data false false time) s = .next bad) ∧
    (s.lrx.parser = .idle → s.fwd.fifo.length < 128 →
      exec (.characterReceived data false true time) s = .next { good with
        fwd := { s.fwd with
          fifo := s.fwd.fifo ++ [{ c with marker := false }], highWater := max s.fwd.highWater (s.fwd.fifo.length + 1) } }) ∧
    (s.lrx.parser = .idle → s.fwd.fifo.length = 128 → s.fwd.highWater = 128 →
      exec (.characterReceived data false true time) s = .next (good.countError .overrun)) ∧
    (s.lrx.parser = .skip → exec (.characterReceived data false true time) s = .next good) ∧
    (TelegramSound s → s.lrx.parser = .skip → s.lrx.gap = none)

/-- What an abort leaves, by the forwarding state: a fragment in STAGING, no waiting check character in PASSING and CUT, nothing
in HOLDING; the plan, the holding list and the captures dropped, the error counted; and the three events that abort. Times are
operands in core clocks (log 4). That GAP_TIMEOUT changes nothing before its time and with the gap timer stopped is the model's
choice (log 3). -/
def Obligations.AbortsDropTheTelegram : Prop :=
  (∀ (s : Machine.State) (e : LineError),
    let gone := fun fifo : List LineChar => State.countError { s with
      fwd := { s.fwd with state := .idle, stage := [], hold := [], changed := false, acc := 0xFFFF, fifo := fifo }
      map := { s.map with plan := none, snapshot := none, holding := [] }
      lch := s.lch.map fun l => { l with capture := none } } e
    let skipped := fun u : Machine.State => { u with lrx := { u.lrx with parser := .skip, gap := none } }
    (s.fwd.state = .passing ∨ s.fwd.state = .cut →
      s.abortTelegram e = skipped (gone (s.fwd.fifo.filter fun c => !c.wait))) ∧
    (s.fwd.state = .holding → s.abortTelegram e = skipped (gone s.fwd.fifo)) ∧
    (s.fwd.state = .staging → s.fwd.fifo.length + s.fwd.stage.length ≤ 128 →
      (s.abortTelegram e).fwd.fifo = s.fwd.fifo ++ s.fwd.stage ∧
      (s.abortTelegram e).fwd.highWater = max s.fwd.highWater (s.fwd.fifo.length + s.fwd.stage.length) ∧
      { s.abortTelegram e with fwd := s.fwd } = { skipped (gone s.fwd.fifo) with fwd := s.fwd } ∧
      (s.abortTelegram e).fwd.state = .idle ∧ (s.abortTelegram e).fwd.stage = []) ∧
    (s.fwd.state = .staging → 128 < s.fwd.fifo.length + s.fwd.stage.length → s.fwd.fifo.length ≤ 128 → e ≠ .overrun →
      (s.abortTelegram e).fwd.fifo = s.fwd.fifo ++ s.fwd.stage.take (128 - s.fwd.fifo.length) ∧
      (s.abortTelegram e).fwd.state = .idle ∧ (s.abortTelegram e).lrx.parser = .skip ∧
      (s.abortTelegram e).lrx.counters[5] = saturate16 s.lrx.counters[5])) ∧
  (∀ (s : Machine.State) (time started : Nat), s.released → s.lrx.gap = some started →
    (started + 24 * bitClocks s.lrx.rate ≤ time → exec (.gapTimeout time) s = .next (s.abortTelegram .gap)) ∧
    (time < started + 24 * bitClocks s.lrx.rate → exec (.gapTimeout time) s = .next s)) ∧
  (∀ (s : Machine.State) (time : Nat), s.lrx.gap = none → exec (.gapTimeout time) s = .next s) ∧
  (∀ (s : Machine.State) (data : Byte) (marker : Bool) (time : Nat), s.released → s.lrx.rx = .receiving true →
    s.lrx.parser ≠ .idle → s.lrx.parser ≠ .skip →
    exec (.characterReceived data marker false time) s = .next ((s.afterStopBit false).abortTelegram .framing) ∧
    exec (.characterReceived data true true time) s =
      .next (((s.afterStopBit true).abortTelegram .truncated).beginTelegram { data := data, marker := true, time := time }))

/-- H1 and H2: the treatment of R9, the header stage released or held, and for a DATA telegram the plan, the snapshot, the pending
writes and the captures, with room in the FIFO or without; without room the snapshot may show the OVERRUN counted in the same event
or not (log 9). The snapshot's values source by source. -/
def Obligations.HeaderCompletionDecidesTheTreatment : Prop :=
  (∀ (h0 : Byte) (len : Nat), groupOf h0 = BitVec.ofNat 8 (h0.toNat % 16) ∧
    lengthAccepted (kindOf h0) len = (match h0.toNat / 16 with
      | 1 => decide (1 ≤ len ∧ len ≤ 240)
      | 2 => decide (4 ≤ len ∧ len ≤ 64)
      | 3 => decide (len = 2)
      | _ => decide (len ≤ 240))) ∧
  (∀ (s : Machine.State) (plan : List PlanEntry),
    (s.takeSnapshot plan).map (·.entry) = (plan.map (·.entry)).filter (·.direction = .produce) ∧
    ∀ p ∈ s.takeSnapshot plan,
      (p.entry.target = 0x00 → p.value = 0) ∧
      (∀ n : Fin 6, p.entry.source.toNat = n.val →
        let c := s.chn[n]
        (p.entry.target = 0x01 → p.value = BitVec.ofNat 32 c.duty) ∧
        (p.entry.target = 0x02 → p.value = BitVec.ofNat 32 (
          (match c.state with | .disabled => 0 | .armed => 1 | .running => 2 | .fault => 3) +
          (if c.sticky.invalid then 4 else 0) + (if c.sticky.range then 8 else 0) +
          (if c.sticky.overrun then 16 else 0) + (if c.sticky.stale then 32 else 0) +
          (match c.code with | .below => 0 | .within => 64 | .above => 128 | .unordered => 192))) ∧
        (p.entry.target = 0x03 → p.value = BitVec.ofNat 32 s.rings[n].slots.length) ∧
        (p.entry.target = 0x08 → p.value = BitVec.ofNat 32 s.lrx.counters[n])) ∧
      (p.entry.target = 0x04 → p.value.toNat < 256 ∧ ∀ k : Fin 8, p.value.getLsbD k.val = s.tiu.inputs[k].level) ∧
      (p.entry.target = 0x05 → p.value =
        BitVec.ofNat 32 ((if s.tiu.latch then 1 else 0) + if s.tiu.trip.level then 0 else 2)) ∧
      (p.entry.target = 0x06 → p.value.toNat < 8192 ∧
        ∀ i, i < 13 → p.value.getLsbD i = (s.mge.flags.getLsbD i && s.mge.mask.getLsbD i)) ∧
      (p.entry.target = 0x07 → ∀ k : Fin 2, p.entry.source.toNat = k.val → p.value = BitVec.ofNat 32 (
        (match s.lch[k].state with
          | .idle => 0
          | .ready => 1
          | .active => 2
          | .waiting => 3
          | .complete => 4
          | .cancelled => 5
          | .terminated => 6) + 256 * s.lch[k].next)) ∧
      (p.entry.target = 0x09 → p.value = BitVec.ofNat 32 s.map.lastCycle.toNat)) ∧
  (∀ (p : PlanEntry) (cycle : Byte), p.pendingWrite cycle = {
    index := p.index, channel := p.entry.target, format := p.entry.format, order := p.entry.order, width := p.entry.width
    offset := p.entry.offset, conversion := p.entry.conversion, cycle := cycle, raw := [] }) ∧
  (∀ (l : LoadChannel) (group : Byte) (len : Nat),
    (∀ d, l.descriptor = some d → l.state = .active → d.group = group →
      d.offset + 1 + d.perChunk * (match d.target with | .map => 8 | .conversion => 16) ≤ len →
      l.openCapture group len = { l with capture := some [] }) ∧
    ((∀ d, l.descriptor = some d → ¬(l.state = .active ∧ d.group = group ∧
        d.offset + 1 + d.perChunk * (match d.target with | .map => 8 | .conversion => 16) ≤ len)) →
      l.openCapture group len = l)) ∧
  (∀ (address h0 h1 : Byte) (len : Nat), len ≤ 255 → address.toNat ≤ 126 →
    treatmentOf address h0 h1 len =
      if h0.toNat / 16 = 1 ∧ 1 ≤ len ∧ len ≤ 240 then .data
      else if h0.toNat / 16 = 2 ∧ 4 ≤ len ∧ len ≤ 64 ∧ h1 = address ∧ address ≠ 0 then .held
      else if h0.toNat / 16 = 2 ∧ 4 ≤ len ∧ len ≤ 64 ∧ h1 = 0x7F then .broadcast
      else if h0.toNat / 16 = 2 ∧ 4 ≤ len ∧ len ≤ 64 then .passed
      else if h0.toNat / 16 = 3 ∧ len = 2 then (if address = 0 then .held else .passed)
      else .foreign) ∧
  (∀ (s : Machine.State) (h0 data : Byte) (time : Nat), s.released → s.lrx.rx = .receiving true →
    s.lrx.parser = .header h0 none →
    let g := s.afterStopBit true
    exec (.characterReceived data false true time) s = .next { g with
      lrx := { g.lrx with parser := .header h0 (some data), acc := checkByte s.lrx.acc data, gap := some time }
      fwd := { s.fwd with stage := s.fwd.stage ++ [{ data := data, marker := false, time := time }] } }) ∧
  (∀ (s : Machine.State) (h0 h1 data : Byte) (time : Nat), s.released → s.lrx.rx = .receiving true →
    s.lrx.parser = .header h0 (some h1) →
    let len := data.toNat
    let treatment := treatmentOf s.lrx.address h0 h1 len
    let t : Telegram := { h0 := h0, h1 := h1, len := len, treatment := treatment, heard := [] }
    let chars := s.fwd.stage ++ [{ data := data, marker := false, time := time }]
    let start := s.afterStopBit true
    let g := if lengthAccepted (kindOf h0) len then start else start.countError .length
    let taken := { g with
      lrx := { g.lrx with
        parser := if len = 0 then .check t none else .payload t 0
        acc := checkByte s.lrx.acc data
        gap := some time } }
    let released := { taken with
      fwd := { s.fwd with
        state := .passing
        stage := []
        acc := checkBytes s.fwd.acc (chars.map (·.data))
        fifo := s.fwd.fifo ++ chars
        highWater := max s.fwd.highWater (s.fwd.fifo.length + chars.length) } }
    (treatment = .held → exec (.characterReceived data false true time) s = .next { taken with
      fwd := { s.fwd with state := .holding, stage := [], hold := chars } }) ∧
    (treatment ≠ .held → treatment ≠ .data → s.fwd.fifo.length + chars.length ≤ 128 →
      exec (.characterReceived data false true time) s = .next released) ∧
    (treatment = .data → s.fwd.fifo.length + chars.length ≤ 128 →
      let plan := s.map.buildPlan (groupOf h0) len
      exec (.characterReceived data false true time) s = .next { released with
        map := { s.map with
          plan := some plan
          snapshot := some (s.takeSnapshot plan)
          holding := (plan.filter fun p => p.entry.direction = .consume).map (·.pendingWrite h1) }
        lch := s.lch.map (·.openCapture (groupOf h0) len) }) ∧
    (treatment ≠ .held → 128 < s.fwd.fifo.length + chars.length → s.fwd.fifo.length ≤ 128 →
      ∃ u, exec (.characterReceived data false true time) s = .next u ∧
        u = { taken.countError .overrun with
          fwd := { s.fwd with
            state := .cut
            stage := []
            acc := checkBytes s.fwd.acc (chars.map (·.data))
            fifo := s.fwd.fifo ++ chars.take (128 - s.fwd.fifo.length)
            highWater := max s.fwd.highWater 128 }
          map := u.map, lch := u.lch, free := u.free } ∧
        u.lrx.counters[5] = saturate16 s.lrx.counters[5] ∧ u.mge.flags.getLsbD 11 = true ∧
        (treatment ≠ .data → u.map = s.map ∧ u.lch = s.lch ∧ u.free = s.free) ∧
        (treatment = .data →
          let plan := s.map.buildPlan (groupOf h0) len
          u.map = { s.map with
            plan := some plan
            snapshot := u.map.snapshot
            holding := (plan.filter fun p => p.entry.direction = .consume).map (·.pendingWrite h1) } ∧
          (u.map.snapshot = some (s.takeSnapshot plan) ∨
            u.map.snapshot = some ((s.countError .overrun).takeSnapshot plan)) ∧
          u.lch = s.lch.map (·.openCapture (groupOf h0) len))))

/-- A payload character in PASSING (substituted where a produced byte covers it), in HOLDING and in CUT; MAP and LCH take the
inbound byte in each. -/
def Obligations.PayloadCharactersAreForwardedAndCollected : Prop :=
  ∀ (s : Machine.State) (t : Telegram) (pos : Nat) (data : Byte) (time : Nat), s.released → s.lrx.rx = .receiving true →
    s.lrx.parser = .payload t pos →
    let g := s.afterStopBit true
    let heard := if t.treatment = .broadcast then { t with heard := t.heard ++ [data] } else t
    let taken := { g with
      lrx := { g.lrx with
        parser := if pos + 1 < t.len then .payload heard (pos + 1) else .check heard none
        acc := checkByte s.lrx.acc data
        gap := some time }
      map := { s.map with
        holding := if t.treatment = .data then s.map.holding.map (·.collect pos data) else s.map.holding }
      lch := if t.treatment = .data then s.lch.map (·.captureByte pos data) else s.lch }
    let produced := if t.treatment = .data then s.map.producedAt pos else none
    let out : LineChar := { data := produced.getD data, marker := false, time := time }
    (s.fwd.state = .passing → s.fwd.fifo.length < 128 →
      exec (.characterReceived data false true time) s = .next { taken with
        fwd := { s.fwd with
          fifo := s.fwd.fifo ++ [out]
          highWater := max s.fwd.highWater (s.fwd.fifo.length + 1)
          changed := s.fwd.changed || produced.isSome
          acc := checkByte s.fwd.acc out.data } }) ∧
    (s.fwd.state = .passing → s.fwd.fifo.length = 128 →
      ∃ u, exec (.characterReceived data false true time) s = .next u ∧ u.fwd.state = .cut ∧ u.fwd.fifo = s.fwd.fifo ∧
        u.map = taken.map ∧ u.lch = taken.lch ∧ u.lrx = { taken.lrx with
          counters := s.lrx.counters.set 5 (saturate16 s.lrx.counters[5]) } ∧ u.mge.flags = s.mge.flags ||| 0x800) ∧
    (s.fwd.state = .holding → exec (.characterReceived data false true time) s = .next { taken with
      fwd := { s.fwd with hold := s.fwd.hold ++ [{ data := data, marker := false, time := time }] } }) ∧
    (s.fwd.state = .cut → exec (.characterReceived data false true time) s = .next taken) ∧
    (∀ (w : PendingWrite) (place : Nat) (b : Byte),
      w.collect place b = if w.offset.toNat ≤ place ∧ place < w.offset.toNat + w.width.toNat then { w with raw := w.raw ++ [b] } else w) ∧
    (∀ (l : LoadChannel) (place : Nat) (b : Byte),
      (∀ d c, l.descriptor = some d → l.capture = some c → l.captureByte place b =
        if d.offset ≤ place ∧ place < d.offset + 1 + d.perChunk * (match d.target with | .map => 8 | .conversion => 16) then
          { l with capture := some (c ++ [b]) } else l) ∧
      (l.capture = none → l.captureByte place b = l)) ∧
    (∀ (m : MapUnit) (place : Nat),
      (m.snapshot = none → m.producedAt place = none) ∧
      (∀ l, m.snapshot = some l →
        (m.producedAt place = none ↔
          ∀ p ∈ l, ¬(p.entry.offset.toNat ≤ place ∧ place < p.entry.offset.toNat + p.entry.width.toNat)) ∧
        ∀ b, m.producedAt place = some b → ∃ p ∈ l,
          p.entry.offset.toNat ≤ place ∧ place < p.entry.offset.toNat + p.entry.width.toNat ∧ b = p.byteAt place)) ∧
    (∀ (p : Produced) (i : Nat), i < p.entry.width.toNat →
      p.byteAt (p.entry.offset.toNat + i) =
        p.value.extractLsb' (8 * (match p.entry.order with
          | .little => i
          | .big => p.entry.width.toNat - 1 - i)) 8)

/-- Check character 1 enters with the wait mark, or meets a full FIFO and cuts the telegram; at the end in PASSING the check characters
leave as received, regenerated or poisoned, by the changed mark and the inbound check, and check character 2 may meet a full FIFO;
in CUT none is sent. A bad end counts CRC. -/
def Obligations.PassingTelegramEndsWithItsCheck : Prop :=
  (∀ (s : Machine.State) (t : Telegram) (data : Byte) (time : Nat), s.released → s.lrx.rx = .receiving true →
    s.lrx.parser = .check t none →
    let g := s.afterStopBit true
    let taken := { g with lrx := { g.lrx with parser := .check t (some data), gap := some time } }
    (s.fwd.state = .passing → s.fwd.fifo.length < 128 →
      exec (.characterReceived data false true time) s = .next { taken with
        fwd := { s.fwd with
          fifo := s.fwd.fifo ++ [{ data := data, marker := false, time := time, wait := true }]
          highWater := max s.fwd.highWater (s.fwd.fifo.length + 1) } }) ∧
    (s.fwd.state = .passing → s.fwd.fifo.length = 128 →
      exec (.characterReceived data false true time) s = .next { taken.countError .overrun with
        fwd := { s.fwd with state := .cut, highWater := max s.fwd.highWater 128 } }) ∧
    (s.fwd.state = .holding → exec (.characterReceived data false true time) s = .next { taken with
      fwd := { s.fwd with hold := s.fwd.hold ++ [{ data := data, marker := false, time := time }] } }) ∧
    (s.fwd.state = .cut → exec (.characterReceived data false true time) s = .next taken)) ∧
  (∀ (s : Machine.State) (t : Telegram) (first data : Byte) (time : Nat), s.released → s.lrx.rx = .receiving true →
    s.lrx.parser = .check t (some first) → s.fwd.state = .passing ∨ s.fwd.state = .cut → s.fwd.fifo.length ≤ 128 →
    let good := first = s.lrx.acc.extractLsb' 8 8 ∧ data = s.lrx.acc.extractLsb' 0 8
    let sent : Byte × Byte :=
      if s.fwd.changed = false then (first, data)
      else if good then (s.fwd.acc.extractLsb' 8 8, s.fwd.acc.extractLsb' 0 8)
      else (~~~s.fwd.acc.extractLsb' 8 8, ~~~s.fwd.acc.extractLsb' 0 8)
    let released := s.fwd.fifo.map fun c => if c.wait then { c with data := sent.1, wait := false } else c
    let closed := { s.fwd with state := .idle, stage := [], hold := [], changed := false, acc := 0xFFFF }
    let overran := s.fwd.state = .passing ∧ s.fwd.fifo.length = 128
    let g := s.afterStopBit true
    let checked := if good then g else g.countError .crc
    let counted := if overran then checked.countError .overrun else checked
    ∃ u, exec (.characterReceived data false true time) s = .next u ∧
      (s.fwd.state = .passing → s.fwd.fifo.length < 128 → u.fwd = { closed with
        fifo := released ++ [{ data := sent.2, marker := false, time := time }]
        highWater := max s.fwd.highWater (s.fwd.fifo.length + 1) }) ∧
      (s.fwd.state = .passing → s.fwd.fifo.length = 128 → u.fwd = { closed with
        fifo := released
        highWater := max s.fwd.highWater 128 } ∧ u.mge.flags.getLsbD 11 = true) ∧
      (s.fwd.state = .cut → u.fwd = closed) ∧
      u.lrx.parser = .idle ∧ u.lrx.gap = none ∧ u.lrx.counters = counted.lrx.counters ∧
      (good → ¬overran → u.lrx.counters = s.lrx.counters) ∧
      (t.treatment = .passed ∨ t.treatment = .foreign →
        u = { counted with lrx := { counted.lrx with parser := .idle, gap := none }, fwd := u.fwd }))

/-- The end of a held telegram: dropped without room, appended as it arrived with a bad check, else executed and appended with the
result, summary and reply written and the check regenerated; what is written where, and the result codes. -/
def Obligations.HeldTelegramIsExecutedAndAppended : Prop :=
  (∀ (cs : List LineChar) (a b : LineChar),
    let v := checkBytes 0xFFFF (cs.map (·.data))
    regenerate (cs ++ [a, b]) = cs ++ [{ a with data := v.extractLsb' 8 8 }, { b with data := v.extractLsb' 0 8 }]) ∧
  (∀ (first : Nat) (bytes : List Byte) (cs : List LineChar), (overwrite first bytes cs).length = cs.length ∧
    ∀ i c, cs[i]? = some c → (overwrite first bytes cs)[i]? =
      some (if first ≤ i then { c with data := (bytes[i - first]?).getD c.data } else c)) ∧
  (∀ (h0 h1 h2 c1 c2 : LineChar) (cs : List LineChar),
    payloadOf ([h0, h1, h2] ++ cs ++ [c1, c2]) = cs.map (·.data)) ∧
  [Result.done, .unknownCommand, .badLength, .badArgument, .reservedField, .readOnly, .wrongState, .busy, .commitRejected,
    .pendingException, .tripActive].map (·.code) = [0, 1, 2, 3, 4, 5, 6, 7, 8, 9, 10] ∧
  ∀ (s : Machine.State) (t : Telegram) (first data : Byte) (time : Nat), s.released → s.lrx.rx = .receiving true →
    s.lrx.parser = .check t (some first) → s.fwd.state = .holding → t.treatment = .held → s.mge.restart ≠ some .carrier →
    let hold := s.fwd.hold ++ [{ data := data, marker := false, time := time }]
    let good := first = s.lrx.acc.extractLsb' 8 8 ∧ data = s.lrx.acc.extractLsb' 0 8
    let g := s.afterStopBit true
    let base := { g with lrx := { g.lrx with parser := .idle, gap := none }, fwd := { s.fwd with hold := hold } }
    let ended := if good then base else base.countError .crc
    let emptied := fun f : Fwd => { f with state := .idle, stage := [], hold := [], changed := false, acc := 0xFFFF }
    let appended := fun (f : Fwd) (cs : List LineChar) => { emptied f with
      fifo := f.fifo ++ cs, highWater := max f.highWater (f.fifo.length + cs.length) }
    (128 < s.fwd.fifo.length + hold.length →
      exec (.characterReceived data false true time) s = .next { ended.countError .overrun with fwd := emptied s.fwd }) ∧
    (s.fwd.fifo.length + hold.length ≤ 128 → ¬good →
      exec (.characterReceived data false true time) s = .next { ended with fwd := appended s.fwd hold }) ∧
    (s.fwd.fifo.length + hold.length ≤ 128 → good → kindOf t.h0 = .assign →
      let mark := byteAt (payloadOf hold) 0
      let offer := byteAt (payloadOf hold) 1
      (s.lrx.address = 0 → mark = 0 → 1 ≤ offer.toNat → offer.toNat ≤ 126 →
        exec (.characterReceived data false true time) s = .next { base with
          lrx := { base.lrx with address := offer }
          mge := { s.mge with answer := some (.assign true) }
          fwd := appended s.fwd (regenerate (overwrite 3 [1] hold)) }) ∧
      (¬(s.lrx.address = 0 ∧ mark = 0 ∧ 1 ≤ offer.toNat ∧ offer.toNat ≤ 126) →
        exec (.characterReceived data false true time) s = .next { base with
          mge := { s.mge with answer := some (.assign false) }, fwd := appended s.fwd hold })) ∧
    (s.fwd.fifo.length + hold.length ≤ 128 → good → kindOf t.h0 = .mgmt →
      let r := executeHeld (payloadOf hold) base
      ∃ u, exec (.characterReceived data false true time) s = .next u ∧
        u.fwd = appended r.state.fwd (regenerate (overwrite 4 (r.result.code :: r.state.summary :: r.reply) hold)) ∧
        u.fwd.fifo = s.fwd.fifo ++ regenerate (overwrite 4 (r.result.code :: r.state.summary :: r.reply) hold) ∧
        u.mge = { r.state.mge with
          answer := some (.mgmt r.result r.state.summary r.reply)
          restart := if r.state.mge.restart = some .carrier then
            some (.after (u.fwd.fifo.length + if s.fwd.txo = .idle then 0 else 1)) else r.state.mge.restart } ∧
        u = { settleEdges s r.state with fwd := u.fwd, mge := u.mge })

/-- The end of a DATA telegram. At a bad end everything of it is dropped with nothing processed. At a good end each pending write
reaches its channel and the last cycle number is kept (state p); then, in this order, the captures are judged (j), the flags of the
load channels that ended are set and a WAITING LC1 is started or cancelled (c), the auto-commit is taken (m), and the captures are
dropped (u). -/
def Obligations.DataTelegramEndsWholeOrNotAtAll : Prop :=
  (∀ (m : MapUnit), m.recordFor 0xFF = none ∧
    ∀ (index : Byte) (k : Fin 16), index.toNat = k.val → m.recordFor index = some m.activeConv[k]) ∧
  ∀ (s : Machine.State) (t : Telegram) (first data : Byte) (time : Nat), s.released → s.lrx.rx = .receiving true →
    s.lrx.parser = .check t (some first) → t.treatment = .data → s.fwd.state ≠ .holding →
    let good := first = s.lrx.acc.extractLsb' 8 8 ∧ data = s.lrx.acc.extractLsb' 0 8
    let overran := s.fwd.state = .passing ∧ 128 ≤ s.fwd.fifo.length
    (¬good → ∃ u, exec (.characterReceived data false true time) s = .next u ∧ NoData u ∧
      u.chn = s.chn ∧ u.rings = s.rings ∧ u.tb = s.tb ∧ u.out = s.out ∧ u.tiu = s.tiu ∧
      u.map = { s.map with plan := none, snapshot := none, holding := [] } ∧
      u.lch = s.lch.map fun l => { l with capture := none }) ∧
    (good → ∃ p c m u : Machine.State,
      p = { s.afterStopBit true with
        lrx := { (s.afterStopBit true).lrx with
          parser := .idle
          gap := none
          counters := if overran then s.lrx.counters.set 5 (saturate16 s.lrx.counters[5]) else s.lrx.counters }
        fwd := p.fwd
        map := { s.map with
          plan := none, snapshot := none, holding := []
          lastCycle := if s.map.holding = [] then s.map.lastCycle else t.h1 }
        chn := p.chn, rings := p.rings, mge := { s.mge with flags := p.mge.flags } } ∧
      ((s.map.holding.map (·.channel)).Nodup →
        (∀ n : Fin 6, (∀ w ∈ s.map.holding, w.channel.toNat ≠ n.val) → p.chn[n] = s.chn[n] ∧ p.rings[n] = s.rings[n]) ∧
        ∀ w ∈ s.map.holding, ∀ n : Fin 6, w.channel.toNat = n.val →
          let f := s.feed n (s.map.recordFor w.conversion) (fieldValue w.format w.order w.raw) (.telegram w.cycle)
          p.chn[n] = f.chn[n] ∧ p.rings[n] = f.rings[n]) ∧
      (∀ i, i < 13 → p.mge.flags.getLsbD i =
        (s.mge.flags.getLsbD i || faultedBetween s p i || (decide (i = 11) && decide overran))) ∧
      let j := (p.judge 0).judge 1
      let entered := fun (k : Fin 2) (x : LoadState) => decide (p.lch[k].state ≠ x ∧ j.lch[k].state = x)
      c = { j with mge := { p.mge with flags := c.mge.flags }, lch := c.lch } ∧
      (∀ i, i < 13 → c.mge.flags.getLsbD i = (p.mge.flags.getLsbD i ||
        (decide (i = 7) && entered 0 .complete) || (decide (i = 8) && entered 1 .complete) ||
        (decide (i = 9) && entered 0 .terminated) || (decide (i = 10) && entered 1 .terminated))) ∧
      c.lch[0] = j.lch[0] ∧
      (j.lch[1].state = .waiting → entered 0 .complete = true → ∀ d, j.lch[0].descriptor = some d →
        c.lch[1] = { j.lch[1] with state := if d.chain then .active else .waiting }) ∧
      (j.lch[1].state = .waiting → entered 0 .terminated = true → c.lch[1] = { j.lch[1] with state := .cancelled }) ∧
      (j.lch[1].state ≠ .waiting ∨ entered 0 .complete = false ∧ entered 0 .terminated = false → c.lch[1] = j.lch[1]) ∧
      let wanted := ∃ (k : Fin 2) (d : Descriptor),
        entered k .complete = true ∧ j.lch[k].descriptor = some d ∧ d.autoCommit = true
      let held := ∃ k : Fin 2, c.lch[k].state = .active ∨ c.lch[k].state = .waiting
      (¬wanted → m = c) ∧
      (wanted → held → m = { c with
        map := { c.map with report := .busy .auto }, mge := { c.mge with flags := c.mge.flags ||| 0x1000 } }) ∧
      (wanted → ¬held → ∀ entry check, c.map.validate = some (entry, check) → m = { c with
        map := { c.map with report := .rejected .auto entry check }
        mge := { c.mge with flags := c.mge.flags ||| 0x1000 } }) ∧
      (wanted → ¬held → c.map.validate = none → m = { c with map := { c.map with
        role := match c.map.role with | .a => .b | .b => .a
        mapA := c.map.stagedMap, mapB := c.map.stagedMap
        convA := c.map.stagedConv, convB := c.map.stagedConv
        report := .done .auto } }) ∧
      u = settleEdges s { m with lch := m.lch.map fun l => { l with capture := none } } ∧
      exec (.characterReceived data false true time) s = .next u ∧ NoData u ∧
      u.chn = p.chn ∧ u.rings = p.rings ∧ u.map.lastCycle = p.map.lastCycle ∧
      ((∀ k : Fin 2, s.lch[k].capture = none) → u.lch = s.lch ∧ u.map = p.map))

/-- A broadcast MGMT telegram, in PASSING and in CUT, is executed at its good end when its command is permitted and long enough, as
the row of its command is, and leaves no answer; at a bad end nothing is executed and CRC is counted. -/
def Obligations.BroadcastTelegramIsExecutedAtItsGoodEnd : Prop :=
  (∀ (s : Machine.State) (t : Telegram) (first data : Byte) (time : Nat), s.released → s.lrx.rx = .receiving true →
    s.lrx.parser = .check t (some first) → t.treatment = .broadcast →
    let good := first = s.lrx.acc.extractLsb' 8 8 ∧ data = s.lrx.acc.extractLsb' 0 8
    let sent : Byte × Byte :=
      if s.fwd.changed = false then (first, data)
      else if good then (s.fwd.acc.extractLsb' 8 8, s.fwd.acc.extractLsb' 0 8)
      else (~~~s.fwd.acc.extractLsb' 8 8, ~~~s.fwd.acc.extractLsb' 0 8)
    let released := s.fwd.fifo.map fun c => if c.wait then { c with data := sent.1, wait := false } else c
    let g := s.afterStopBit true
    let closed := { s.fwd with state := .idle, stage := [], hold := [], changed := false, acc := 0xFFFF }
    let base := { g with lrx := { g.lrx with parser := .idle, gap := none }, fwd := closed }
    let passed := { base with fwd := { closed with
      fifo := released ++ [{ data := sent.2, marker := false, time := time }]
      highWater := max s.fwd.highWater (s.fwd.fifo.length + 1) } }
    let overran := { base.countError .overrun with fwd := { closed with
      fifo := released
      highWater := max s.fwd.highWater 128 } }
    let executed := fun b : Machine.State => settleEdges s (executeBroadcast t.heard b).fixRestartPoint
    (s.fwd.state = .passing → s.fwd.fifo.length < 128 →
      (good → exec (.characterReceived data false true time) s = .next (executed passed)) ∧
      (¬good → exec (.characterReceived data false true time) s = .next (passed.countError .crc))) ∧
    (s.fwd.state = .passing → s.fwd.fifo.length = 128 →
      (good → exec (.characterReceived data false true time) s = .next (executed overran)) ∧
      (¬good → exec (.characterReceived data false true time) s = .next (overran.countError .crc))) ∧
    (s.fwd.state = .cut →
      (good → exec (.characterReceived data false true time) s = .next (executed base)) ∧
      (¬good → exec (.characterReceived data false true time) s = .next (base.countError .crc)))) ∧
  (∀ s : Machine.State, s.fixRestartPoint = { s with mge := { s.mge with
    restart := if s.mge.restart = some .carrier then
      some (.after (s.fwd.fifo.length + if s.fwd.txo = .idle then 0 else 1)) else s.mge.restart } }) ∧
  (∀ (payload : List Byte) (s : Machine.State), s.released → 4 ≤ payload.length →
    let code := (byteAt payload 0).toNat
    let first := byteAt payload 3
    let second := (byteAt payload 4).toNat
    let runs := fun row : Instr => exec row s = .next (settleEdges s (executeBroadcast payload s).fixRestartPoint)
    s.mge.restart ≠ some .carrier →
    (code = 0x24 → runs (.commit .broadcast)) ∧
    (code = 0x30 → 5 ≤ payload.length →
      (second = 1 → runs (.enable .broadcast first)) ∧ (second = 2 → runs (.disable .broadcast first)) ∧
      (second = 3 → runs (.clearFault .broadcast first)) ∧ (second = 4 → runs (.clearFlags .broadcast first)) ∧
      (second = 0 ∨ 5 ≤ second → executeBroadcast payload s = s)) ∧
    (code = 0x31 → 5 ≤ payload.length →
      (second = 1 → runs (.start .broadcast first)) ∧ (second = 2 → runs (.stop .broadcast first)) ∧
      (second = 0 ∨ 3 ≤ second → executeBroadcast payload s = s)) ∧
    (code = 0x33 → (first = 1 → runs (.force .broadcast)) ∧ (first = 2 → runs (.clear .broadcast)) ∧
      (first = 0 ∨ 3 ≤ first.toNat → executeBroadcast payload s = s)) ∧
    (code = 0x50 → runs (.releaseAddress .broadcast)) ∧
    (code = 0x51 → runs (.restart .broadcast))) ∧
  (∀ (payload : List Byte) (s : Machine.State), 4 ≤ payload.length →
    let code := (byteAt payload 0).toNat
    let first := byteAt payload 3
    let second := byteAt payload 4
    (code = 0x24 → executeBroadcast payload s = (commit .broadcast s).state) ∧
    (code = 0x30 → 5 ≤ payload.length → executeBroadcast payload s = (channelAction first second .broadcast s).state) ∧
    (code = 0x31 → 5 ≤ payload.length → executeBroadcast payload s = (timebaseAction first second .broadcast s).state) ∧
    (code = 0x33 → executeBroadcast payload s = (tripAction first .broadcast s).state) ∧
    (code = 0x50 → executeBroadcast payload s = { s with lrx := { s.lrx with address := 0 } }) ∧
    (code = 0x51 → executeBroadcast payload s = (restart .broadcast s).state) ∧
    (code ≠ 0x24 → code ≠ 0x30 → code ≠ 0x31 → code ≠ 0x33 → code ≠ 0x50 → code ≠ 0x51 → executeBroadcast payload s = s) ∧
    (code = 0x30 ∨ code = 0x31 → payload.length < 5 → executeBroadcast payload s = s))

/-- TXO begins to send the head character when it is two character times old and does not wait, and takes 11 bit times, in which it
stands at the start bit 0, the data bits from bit 0 on, the marker bit and the stop bit 1; times are
operands in core clocks (log 4), and nothing is begun at the restart point (log 7). That TRANSMIT_CHARACTER and CHARACTER_SENT change
nothing where their condition does not hold (FIFO empty, TXO busy or idle, too early) is the model's choice (log 3). -/
def Obligations.HeadCharacterIsSent : Prop :=
  ∀ (s : Machine.State) (time : Nat), s.released →
    (s.fwd.txo = .idle → s.mge.restart ≠ some (.after 0) → ∀ c rest, s.fwd.fifo = c :: rest →
      (c.wait = false → c.time + 22 * bitClocks s.lrx.rate ≤ time →
        exec (.transmitCharacter time) s = .next { s with fwd := { s.fwd with fifo := rest, txo := .sending c time } }) ∧
      (c.wait = true ∨ time < c.time + 22 * bitClocks s.lrx.rate → exec (.transmitCharacter time) s = .next s)) ∧
    (s.fwd.fifo = [] ∨ s.fwd.txo ≠ .idle ∨ s.mge.restart = some (.after 0) → exec (.transmitCharacter time) s = .next s) ∧
    (∀ c since, s.fwd.txo = .sending c since →
      (time < since + 11 * bitClocks s.lrx.rate → exec (.characterSent time) s = .next s) ∧
      (since + 11 * bitClocks s.lrx.rate ≤ time →
        let idle := { s with
          fwd := { s.fwd with txo := .idle }
          mge := { s.mge with restart := match s.mge.restart with
            | some (.after k) => some (.after (k - 1))
            | other => other } }
        (∀ d rest, s.fwd.fifo = d :: rest → d.wait = false → d.time + 22 * bitClocks s.lrx.rate ≤ time →
          idle.mge.restart ≠ some (.after 0) →
          exec (.characterSent time) s = .next { idle with fwd := { s.fwd with fifo := rest, txo := .sending d time } }) ∧
        ((∀ d rest, s.fwd.fifo = d :: rest → d.wait = true ∨ time < d.time + 22 * bitClocks s.lrx.rate) ∨
          idle.mge.restart = some (.after 0) → exec (.characterSent time) s = .next idle))) ∧
    (s.fwd.txo = .idle → exec (.characterSent time) s = .next s) ∧
    (s.fwd.txo = .idle → ∀ moment, s.txoLevel moment = true) ∧
    (∀ c since, s.fwd.txo = .sending c since → ∀ bit within, bit < 11 → within < bitClocks s.lrx.rate →
      s.txoLevel (since + bit * bitClocks s.lrx.rate + within) =
        if bit = 0 then false else if bit ≤ 8 then c.data.getLsbD (bit - 1) else if bit = 9 then c.marker else true) ∧
    ([0, 1, 2, 3].map bitClocks = [32, 16, 8, 4])
end

