-- ==== Sys2Proof/Laws/State.lean ====
section
/-! SUPPORT. What each update of one record leaves: every other field as it was, and the record at its own place. -/

namespace Sys2Proof.Machine

/-! ### `State.setChannel` -/

@[simp] theorem State.setChannel_lrx (s : State) (n : Fin 6) (x : Channel) : (s.setChannel n x).lrx = s.lrx := rfl
@[simp] theorem State.setChannel_fwd (s : State) (n : Fin 6) (x : Channel) : (s.setChannel n x).fwd = s.fwd := rfl
@[simp] theorem State.setChannel_map (s : State) (n : Fin 6) (x : Channel) : (s.setChannel n x).map = s.map := rfl
@[simp] theorem State.setChannel_rings (s : State) (n : Fin 6) (x : Channel) : (s.setChannel n x).rings = s.rings := rfl
@[simp] theorem State.setChannel_chn (s : State) (n : Fin 6) (x : Channel) : (s.setChannel n x).chn = s.chn.set n x := rfl
@[simp] theorem State.setChannel_tb (s : State) (n : Fin 6) (x : Channel) : (s.setChannel n x).tb = s.tb := rfl
@[simp] theorem State.setChannel_out (s : State) (n : Fin 6) (x : Channel) : (s.setChannel n x).out = s.out := rfl
@[simp] theorem State.setChannel_tiu (s : State) (n : Fin 6) (x : Channel) : (s.setChannel n x).tiu = s.tiu := rfl
@[simp] theorem State.setChannel_lch (s : State) (n : Fin 6) (x : Channel) : (s.setChannel n x).lch = s.lch := rfl
@[simp] theorem State.setChannel_mge (s : State) (n : Fin 6) (x : Channel) : (s.setChannel n x).mge = s.mge := rfl
@[simp] theorem State.setChannel_pins (s : State) (n : Fin 6) (x : Channel) : (s.setChannel n x).pins = s.pins := rfl
@[simp] theorem State.setChannel_free (s : State) (n : Fin 6) (x : Channel) : (s.setChannel n x).free = s.free := rfl
@[simp] theorem State.setChannel_pending (s : State) (n : Fin 6) (x : Channel) : (s.setChannel n x).pending = s.pending := rfl

theorem State.setChannel_get (s : State) (n m : Fin 6) (x : Channel) :
    (s.setChannel n x).chn[m] = if m = n then x else s.chn[m] := by
  simp only [State.setChannel, Fin.getElem_fin, Vector.getElem_set, Fin.ext_iff, eq_comm]

/-! ### `State.setRing` -/

@[simp] theorem State.setRing_lrx (s : State) (n : Fin 6) (x : Ring) : (s.setRing n x).lrx = s.lrx := rfl
@[simp] theorem State.setRing_fwd (s : State) (n : Fin 6) (x : Ring) : (s.setRing n x).fwd = s.fwd := rfl
@[simp] theorem State.setRing_map (s : State) (n : Fin 6) (x : Ring) : (s.setRing n x).map = s.map := rfl
@[simp] theorem State.setRing_rings (s : State) (n : Fin 6) (x : Ring) : (s.setRing n x).rings = s.rings.set n x := rfl
@[simp] theorem State.setRing_chn (s : State) (n : Fin 6) (x : Ring) : (s.setRing n x).chn = s.chn := rfl
@[simp] theorem State.setRing_tb (s : State) (n : Fin 6) (x : Ring) : (s.setRing n x).tb = s.tb := rfl
@[simp] theorem State.setRing_out (s : State) (n : Fin 6) (x : Ring) : (s.setRing n x).out = s.out := rfl
@[simp] theorem State.setRing_tiu (s : State) (n : Fin 6) (x : Ring) : (s.setRing n x).tiu = s.tiu := rfl
@[simp] theorem State.setRing_lch (s : State) (n : Fin 6) (x : Ring) : (s.setRing n x).lch = s.lch := rfl
@[simp] theorem State.setRing_mge (s : State) (n : Fin 6) (x : Ring) : (s.setRing n x).mge = s.mge := rfl
@[simp] theorem State.setRing_pins (s : State) (n : Fin 6) (x : Ring) : (s.setRing n x).pins = s.pins := rfl
@[simp] theorem State.setRing_free (s : State) (n : Fin 6) (x : Ring) : (s.setRing n x).free = s.free := rfl
@[simp] theorem State.setRing_pending (s : State) (n : Fin 6) (x : Ring) : (s.setRing n x).pending = s.pending := rfl

theorem State.setRing_get (s : State) (n m : Fin 6) (x : Ring) :
    (s.setRing n x).rings[m] = if m = n then x else s.rings[m] := by
  simp only [State.setRing, Fin.getElem_fin, Vector.getElem_set, Fin.ext_iff, eq_comm]

/-! ### `State.setOutput` -/

@[simp] theorem State.setOutput_lrx (s : State) (n : Fin 6) (x : Output) : (s.setOutput n x).lrx = s.lrx := rfl
@[simp] theorem State.setOutput_fwd (s : State) (n : Fin 6) (x : Output) : (s.setOutput n x).fwd = s.fwd := rfl
@[simp] theorem State.setOutput_map (s : State) (n : Fin 6) (x : Output) : (s.setOutput n x).map = s.map := rfl
@[simp] theorem State.setOutput_rings (s : State) (n : Fin 6) (x : Output) : (s.setOutput n x).rings = s.rings := rfl
@[simp] theorem State.setOutput_chn (s : State) (n : Fin 6) (x : Output) : (s.setOutput n x).chn = s.chn := rfl
@[simp] theorem State.setOutput_tb (s : State) (n : Fin 6) (x : Output) : (s.setOutput n x).tb = s.tb := rfl
@[simp] theorem State.setOutput_out (s : State) (n : Fin 6) (x : Output) : (s.setOutput n x).out = s.out.set n x := rfl
@[simp] theorem State.setOutput_tiu (s : State) (n : Fin 6) (x : Output) : (s.setOutput n x).tiu = s.tiu := rfl
@[simp] theorem State.setOutput_lch (s : State) (n : Fin 6) (x : Output) : (s.setOutput n x).lch = s.lch := rfl
@[simp] theorem State.setOutput_mge (s : State) (n : Fin 6) (x : Output) : (s.setOutput n x).mge = s.mge := rfl
@[simp] theorem State.setOutput_pins (s : State) (n : Fin 6) (x : Output) : (s.setOutput n x).pins = s.pins := rfl
@[simp] theorem State.setOutput_free (s : State) (n : Fin 6) (x : Output) : (s.setOutput n x).free = s.free := rfl
@[simp] theorem State.setOutput_pending (s : State) (n : Fin 6) (x : Output) : (s.setOutput n x).pending = s.pending := rfl

theorem State.setOutput_get (s : State) (n m : Fin 6) (x : Output) :
    (s.setOutput n x).out[m] = if m = n then x else s.out[m] := by
  simp only [State.setOutput, Fin.getElem_fin, Vector.getElem_set, Fin.ext_iff, eq_comm]

/-! ### `State.setTimebase` -/

@[simp] theorem State.setTimebase_lrx (s : State) (t : Fin 2) (x : Timebase) : (s.setTimebase t x).lrx = s.lrx := rfl
@[simp] theorem State.setTimebase_fwd (s : State) (t : Fin 2) (x : Timebase) : (s.setTimebase t x).fwd = s.fwd := rfl
@[simp] theorem State.setTimebase_map (s : State) (t : Fin 2) (x : Timebase) : (s.setTimebase t x).map = s.map := rfl
@[simp] theorem State.setTimebase_rings (s : State) (t : Fin 2) (x : Timebase) : (s.setTimebase t x).rings = s.rings := rfl
@[simp] theorem State.setTimebase_chn (s : State) (t : Fin 2) (x : Timebase) : (s.setTimebase t x).chn = s.chn := rfl
@[simp] theorem State.setTimebase_tb (s : State) (t : Fin 2) (x : Timebase) : (s.setTimebase t x).tb = s.tb.set t x := rfl
@[simp] theorem State.setTimebase_out (s : State) (t : Fin 2) (x : Timebase) : (s.setTimebase t x).out = s.out := rfl
@[simp] theorem State.setTimebase_tiu (s : State) (t : Fin 2) (x : Timebase) : (s.setTimebase t x).tiu = s.tiu := rfl
@[simp] theorem State.setTimebase_lch (s : State) (t : Fin 2) (x : Timebase) : (s.setTimebase t x).lch = s.lch := rfl
@[simp] theorem State.setTimebase_mge (s : State) (t : Fin 2) (x : Timebase) : (s.setTimebase t x).mge = s.mge := rfl
@[simp] theorem State.setTimebase_pins (s : State) (t : Fin 2) (x : Timebase) : (s.setTimebase t x).pins = s.pins := rfl
@[simp] theorem State.setTimebase_free (s : State) (t : Fin 2) (x : Timebase) : (s.setTimebase t x).free = s.free := rfl
@[simp] theorem State.setTimebase_pending (s : State) (t : Fin 2) (x : Timebase) : (s.setTimebase t x).pending = s.pending := rfl

theorem State.setTimebase_get (s : State) (t m : Fin 2) (x : Timebase) :
    (s.setTimebase t x).tb[m] = if m = t then x else s.tb[m] := by
  simp only [State.setTimebase, Fin.getElem_fin, Vector.getElem_set, Fin.ext_iff, eq_comm]

/-! ### `State.setLoad` -/

@[simp] theorem State.setLoad_lrx (s : State) (k : Fin 2) (x : LoadChannel) : (s.setLoad k x).lrx = s.lrx := rfl
@[simp] theorem State.setLoad_fwd (s : State) (k : Fin 2) (x : LoadChannel) : (s.setLoad k x).fwd = s.fwd := rfl
@[simp] theorem State.setLoad_map (s : State) (k : Fin 2) (x : LoadChannel) : (s.setLoad k x).map = s.map := rfl
@[simp] theorem State.setLoad_rings (s : State) (k : Fin 2) (x : LoadChannel) : (s.setLoad k x).rings = s.rings := rfl
@[simp] theorem State.setLoad_chn (s : State) (k : Fin 2) (x : LoadChannel) : (s.setLoad k x).chn = s.chn := rfl
@[simp] theorem State.setLoad_tb (s : State) (k : Fin 2) (x : LoadChannel) : (s.setLoad k x).tb = s.tb := rfl
@[simp] theorem State.setLoad_out (s : State) (k : Fin 2) (x : LoadChannel) : (s.setLoad k x).out = s.out := rfl
@[simp] theorem State.setLoad_tiu (s : State) (k : Fin 2) (x : LoadChannel) : (s.setLoad k x).tiu = s.tiu := rfl
@[simp] theorem State.setLoad_lch (s : State) (k : Fin 2) (x : LoadChannel) : (s.setLoad k x).lch = s.lch.set k x := rfl
@[simp] theorem State.setLoad_mge (s : State) (k : Fin 2) (x : LoadChannel) : (s.setLoad k x).mge = s.mge := rfl
@[simp] theorem State.setLoad_pins (s : State) (k : Fin 2) (x : LoadChannel) : (s.setLoad k x).pins = s.pins := rfl
@[simp] theorem State.setLoad_free (s : State) (k : Fin 2) (x : LoadChannel) : (s.setLoad k x).free = s.free := rfl
@[simp] theorem State.setLoad_pending (s : State) (k : Fin 2) (x : LoadChannel) : (s.setLoad k x).pending = s.pending := rfl

theorem State.setLoad_get (s : State) (k m : Fin 2) (x : LoadChannel) :
    (s.setLoad k x).lch[m] = if m = k then x else s.lch[m] := by
  simp only [State.setLoad, Fin.getElem_fin, Vector.getElem_set, Fin.ext_iff, eq_comm]

/-! ### `State.setFlag` -/

@[simp] theorem State.setFlag_lrx (s : State) (a : Attention) : (s.setFlag a).lrx = s.lrx := rfl
@[simp] theorem State.setFlag_fwd (s : State) (a : Attention) : (s.setFlag a).fwd = s.fwd := rfl
@[simp] theorem State.setFlag_map (s : State) (a : Attention) : (s.setFlag a).map = s.map := rfl
@[simp] theorem State.setFlag_rings (s : State) (a : Attention) : (s.setFlag a).rings = s.rings := rfl
@[simp] theorem State.setFlag_chn (s : State) (a : Attention) : (s.setFlag a).chn = s.chn := rfl
@[simp] theorem State.setFlag_tb (s : State) (a : Attention) : (s.setFlag a).tb = s.tb := rfl
@[simp] theorem State.setFlag_out (s : State) (a : Attention) : (s.setFlag a).out = s.out := rfl
@[simp] theorem State.setFlag_tiu (s : State) (a : Attention) : (s.setFlag a).tiu = s.tiu := rfl
@[simp] theorem State.setFlag_lch (s : State) (a : Attention) : (s.setFlag a).lch = s.lch := rfl
@[simp] theorem State.setFlag_pins (s : State) (a : Attention) : (s.setFlag a).pins = s.pins := rfl
@[simp] theorem State.setFlag_free (s : State) (a : Attention) : (s.setFlag a).free = s.free := rfl
@[simp] theorem State.setFlag_pending (s : State) (a : Attention) : (s.setFlag a).pending = s.pending := rfl
@[simp] theorem State.setFlag_mask (s : State) (a : Attention) : (s.setFlag a).mge.mask = s.mge.mask := rfl
@[simp] theorem State.setFlag_restart (s : State) (a : Attention) : (s.setFlag a).mge.restart = s.mge.restart := rfl
@[simp] theorem State.setFlag_answer (s : State) (a : Attention) : (s.setFlag a).mge.answer = s.mge.answer := rfl
@[simp] theorem State.setFlag_flags (s : State) (a : Attention) :
    (s.setFlag a).mge.flags = s.mge.flags ||| (1#13 <<< a.index) := rfl

end Sys2Proof.Machine
end

