-- ==== Sys2Proof/Laws/Outputs.lean ====
section
/-! SUPPORT. When a gated level is the same in two states, what `settleEdges` leaves, and the two cases of `event`. -/

namespace Sys2Proof.Machine

/-! ### The gated level -/

/-- The gated level depends on the counter, the duty, the gate setting and the filtered levels alone. -/
theorem State.gated_congr {s u : State} (n : Fin 6) (counter : u.tb[timebaseOf n].counter = s.tb[timebaseOf n].counter)
    (duty : u.chn[n].duty = s.chn[n].duty) (gate : u.out[n].gate = s.out[n].gate)
    (levels : ∀ k : Fin 8, u.tiu.inputs[k].level = s.tiu.inputs[k].level) : u.gated n = s.gated n := by
  unfold State.gated State.raw State.gateOpen
  rw [counter, duty, gate]
  cases s.out[n].gate with
  | none => rfl
  | input k active => simp only [levels k]

/-- A state that differs outside the timebases, the channels, the outputs and TIU has the same gated levels. -/
theorem State.gated_same {s u : State} (tb : u.tb = s.tb) (chn : u.chn = s.chn) (out : u.out = s.out) (tiu : u.tiu = s.tiu)
    (n : Fin 6) : u.gated n = s.gated n :=
  State.gated_congr n (by rw [tb]) (by rw [chn]) (by rw [out]) (by rw [tiu]; exact fun _ => rfl)

/-! ### Edges -/

@[simp] theorem settleEdges_lrx (s u : State) : (settleEdges s u).lrx = u.lrx := rfl
@[simp] theorem settleEdges_fwd (s u : State) : (settleEdges s u).fwd = u.fwd := rfl
@[simp] theorem settleEdges_map (s u : State) : (settleEdges s u).map = u.map := rfl
@[simp] theorem settleEdges_rings (s u : State) : (settleEdges s u).rings = u.rings := rfl
@[simp] theorem settleEdges_chn (s u : State) : (settleEdges s u).chn = u.chn := rfl
@[simp] theorem settleEdges_tb (s u : State) : (settleEdges s u).tb = u.tb := rfl
@[simp] theorem settleEdges_tiu (s u : State) : (settleEdges s u).tiu = u.tiu := rfl
@[simp] theorem settleEdges_lch (s u : State) : (settleEdges s u).lch = u.lch := rfl
@[simp] theorem settleEdges_mge (s u : State) : (settleEdges s u).mge = u.mge := rfl
@[simp] theorem settleEdges_pins (s u : State) : (settleEdges s u).pins = u.pins := rfl
@[simp] theorem settleEdges_free (s u : State) : (settleEdges s u).free = u.free := rfl
@[simp] theorem settleEdges_pending (s u : State) : (settleEdges s u).pending = u.pending := rfl

/-- The outputs of one channel after the edges are settled (R128 (1)). -/
theorem settleEdges_out (s u : State) (n : Fin 6) :
    (settleEdges s u).out[n] = if s.gated n = u.gated n then u.out[n] else u.out[n].restartAges := by
  simp [settleEdges, Fin.getElem_fin, Vector.getElem_ofFn]

/-- Without an edge nothing is settled. -/
theorem settleEdges_of_same (s u : State) (h : ∀ n : Fin 6, u.gated n = s.gated n) : settleEdges s u = u := by
  have out : (Vector.ofFn fun n : Fin 6 => if s.gated n = u.gated n then u.out[n] else u.out[n].restartAges) = u.out := by
    ext i hi : 1
    simp [h ⟨i, hi⟩]
  simp only [settleEdges]
  rw [out]

/-- Work that leaves the timebases, the channels, the outputs and TIU makes no edge. -/
theorem settleEdges_of_blocks (s u : State) (tb : u.tb = s.tb) (chn : u.chn = s.chn) (out : u.out = s.out)
    (tiu : u.tiu = s.tiu) : settleEdges s u = u :=
  settleEdges_of_same s u fun n => State.gated_same tb chn out tiu n

theorem settleEdges_self (s : State) : settleEdges s s = s := settleEdges_of_same s s fun _ => rfl

/-! ### The frame of an event (R187) -/

theorem event_high (work : State → State) (s : State) (h : s.pins.rstn = true) :
    event work s = .next (settleEdges s (work s)) := by
  simp [event, h]

theorem event_low (work : State → State) (s : State) (h : s.pins.rstn = false) : event work s = .next s := by
  simp [event, h]

/-- Work that leaves the timebases, the channels, the outputs and TIU is the whole event. -/
theorem event_of_blocks (work : State → State) (s : State) (h : s.pins.rstn = true) (tb : (work s).tb = s.tb)
    (chn : (work s).chn = s.chn) (out : (work s).out = s.out) (tiu : (work s).tiu = s.tiu) :
    event work s = .next (work s) := by
  rw [event_high work s h, settleEdges_of_blocks s (work s) tb chn out tiu]

end Sys2Proof.Machine
end

