-- ==== Sys2Proof/Laws/Rings.lean ====
section
/-! SUPPORT. What an operation on one channel can do (chapters 4 to 6): it touches that channel's record, its ring and the
attention flags, and nothing else. -/

namespace Sys2Proof.Machine

/-! ### Work on channels alone -/

/-- The two states agree in every block but the channel records, the rings and the attention flags. -/
structure ChannelsWork (s u : State) : Prop where
  mge : u.mge = { s.mge with flags := u.mge.flags }
  blocks : u.lrx = s.lrx ∧ u.fwd = s.fwd ∧ u.map = s.map ∧ u.tb = s.tb ∧ u.out = s.out ∧ u.tiu = s.tiu ∧ u.lch = s.lch
  rest : u.pins = s.pins ∧ u.free = s.free ∧ u.pending = s.pending

/-- The same, with every channel but `n` and its ring as they were. -/
structure ChannelWork (s u : State) (n : Fin 6) : Prop extends ChannelsWork s u where
  others : ∀ m : Fin 6, m ≠ n → u.chn[m] = s.chn[m] ∧ u.rings[m] = s.rings[m]

theorem ChannelsWork.refl (s : State) : ChannelsWork s s := ⟨rfl, ⟨rfl, rfl, rfl, rfl, rfl, rfl, rfl⟩, rfl, rfl, rfl⟩

theorem ChannelsWork.trans {s u v : State} (h : ChannelsWork s u) (k : ChannelsWork u v) : ChannelsWork s v := by
  obtain ⟨b, ⟨c1, c2, c3, c4, c5, c6, c7⟩, d1, d2, d3⟩ := h
  obtain ⟨b', ⟨e1, e2, e3, e4, e5, e6, e7⟩, f1, f2, f3⟩ := k
  refine ⟨?_, ⟨e1.trans c1, e2.trans c2, e3.trans c3, e4.trans c4, e5.trans c5, e6.trans c6, e7.trans c7⟩,
    f1.trans d1, f2.trans d2, f3.trans d3⟩
  rw [b', b]

theorem ChannelWork.refl (s : State) (n : Fin 6) : ChannelWork s s n := ⟨.refl s, fun _ _ => ⟨rfl, rfl⟩⟩

theorem ChannelWork.trans {s u v : State} {n : Fin 6} (h : ChannelWork s u n) (k : ChannelWork u v n) : ChannelWork s v n :=
  ⟨h.toChannelsWork.trans k.toChannelsWork, fun m hm =>
    ⟨(k.others m hm).1.trans (h.others m hm).1, (k.others m hm).2.trans (h.others m hm).2⟩⟩

/-- A fold of channel work is channel work. -/
theorem ChannelsWork.foldl {α : Type} (f : State → α → State) (h : ∀ s a, ChannelsWork s (f s a)) (l : List α) (s : State) :
    ChannelsWork s (l.foldl f s) := by
  induction l generalizing s with
  | nil => exact .refl s
  | cons a l ih => exact (h s a).trans (ih (f s a))

theorem State.setChannel_work (s : State) (n : Fin 6) (c : Channel) : ChannelWork s (s.setChannel n c) n :=
  ⟨⟨rfl, ⟨rfl, rfl, rfl, rfl, rfl, rfl, rfl⟩, rfl, rfl, rfl⟩, fun m hm => ⟨by rw [State.setChannel_get, if_neg hm], rfl⟩⟩

theorem State.setRing_work (s : State) (n : Fin 6) (r : Ring) : ChannelWork s (s.setRing n r) n :=
  ⟨⟨rfl, ⟨rfl, rfl, rfl, rfl, rfl, rfl, rfl⟩, rfl, rfl, rfl⟩, fun m hm => ⟨rfl, by rw [State.setRing_get, if_neg hm]⟩⟩

theorem State.setFlag_work (s : State) (n : Fin 6) (a : Attention) : ChannelWork s (s.setFlag a) n :=
  ⟨⟨rfl, ⟨rfl, rfl, rfl, rfl, rfl, rfl, rfl⟩, rfl, rfl, rfl⟩, fun _ _ => ⟨rfl, rfl⟩⟩

/-! ### The operations -/

theorem State.enterFault_work (s : State) (n : Fin 6) (cause : Exc) : ChannelWork s (s.enterFault n cause) n :=
  ((s.setChannel_work n _).trans (State.setRing_work _ n _)).trans (State.setFlag_work _ n _)

/-- The channel record in FAULT (R107). -/
theorem State.enterFault_get (s : State) (n : Fin 6) (cause : Exc) :
    (s.enterFault n cause).chn[n] = s.chn[n].faulted cause ∧ (s.enterFault n cause).rings[n] = s.rings[n].emptied := by
  constructor
  · simp only [State.enterFault, State.setFlag_chn, State.setRing_chn, State.setChannel_get, if_true]
  · simp only [State.enterFault, State.setFlag_rings, State.setRing_get, if_true, State.setChannel_rings]

theorem State.raise_work (s : State) (n : Fin 6) (e : Exc) : ChannelWork s (s.raise n e) n := s.setChannel_work n _

theorem State.raise_get (s : State) (n : Fin 6) (e : Exc) :
    (s.raise n e).chn[n] = { s.chn[n] with sticky := s.chn[n].sticky.insert e } ∧ (s.raise n e).rings = s.rings :=
  ⟨by simp only [State.raise, State.setChannel_get, if_true], rfl⟩

theorem State.push_work (s : State) (n : Fin 6) (slot : Slot) : ChannelWork s (s.push n slot) n := by
  unfold State.push
  dsimp only
  split
  · exact s.setRing_work n _
  · split
    · exact s.setRing_work n _
    · split
      · exact (s.raise_work n _).trans (State.setRing_work _ n _)
      · exact (s.raise_work n _).trans (State.enterFault_work _ n _)

theorem State.deliver_work (s : State) (n : Fin 6) (r : Converted) (origin : SlotOrigin) :
    ChannelWork s (s.deliver n r origin) n := by
  have raised : ChannelWork s (match r.raised with | some e => s.raise n e | none => s) n := by
    split
    · exact s.raise_work n _
    · exact .refl s n
  unfold State.deliver
  dsimp only
  split
  · exact raised.trans (State.push_work _ n _)
  · exact raised.trans (State.enterFault_work _ n _)

theorem State.feed_work (s : State) (n : Fin 6) (record : Option ConvRecord) (x : Option Int) (origin : SlotOrigin) :
    ChannelWork s (s.feed n record x origin) n := by
  unfold State.feed
  split
  · exact s.deliver_work n _ _
  · exact .refl s n

theorem State.popApply_work (s : State) (n : Fin 6) (period : Nat) : ChannelWork s (s.popApply n period) n := by
  unfold State.popApply
  dsimp only
  split
  · exact (s.setRing_work n _).trans (State.setChannel_work _ n _)
  · split
    · split
      · exact (s.raise_work n _).trans (State.setChannel_work _ n _)
      · exact (s.raise_work n _).trans (State.enterFault_work _ n _)
    · exact .refl s n

theorem State.channelBoundary_work (s : State) (period : Nat) (n : Fin 6) : ChannelWork s (s.channelBoundary period n) n := by
  have taken : ChannelWork s (s.takeDeadTime n) n := s.setChannel_work n _
  unfold State.channelBoundary
  dsimp only
  split
  · split
    · exact taken.trans (State.enterFault_work _ n _)
    · exact taken.trans (State.popApply_work _ n _)
  · exact taken

end Sys2Proof.Machine
end

