-- ==== Sys2Proof/Laws/Timebases.lean ====
section
/-! SUPPORT. What a boundary and a tick can do. -/

namespace Sys2Proof.Machine

/-- A boundary sets its timebase, then does channel work (R118). -/
theorem State.boundary_work (s : State) (t : Fin 2) :
    ChannelsWork (s.setTimebase t { s.tb[t] with period := s.tb[t].staged, counter := 0 }) (s.boundary t) :=
  ChannelsWork.foldl _ (fun u n => (u.channelBoundary_work s.tb[t].staged n).toChannelsWork) _ _

/-- A tick is one more on the counter, or the boundary (R114). -/
theorem State.countTick_cases (s : State) (t : Fin 2) :
    (s.tb[t].counter + 1 < s.tb[t].period ∧ s.countTick t = s.setTimebase t { s.tb[t] with counter := s.tb[t].counter + 1 }) ∨
    (s.tb[t].period ≤ s.tb[t].counter + 1 ∧ s.countTick t = s.boundary t) := by
  unfold State.countTick
  dsimp only
  split
  · exact .inl ⟨‹_›, rfl⟩
  · exact .inr ⟨by omega, rfl⟩

/-- The outputs of one channel after the ages of a tick (R128). -/
theorem tickAges_out (t : Fin 2) (s u : State) (n : Fin 6) :
    (tickAges t s u).out[n] =
      if timebaseOf n ≠ t then u.out[n]
      else if s.gated n ≠ u.gated n ∨ (s.chn[n].state ≠ .running ∧ u.chn[n].state = .running) then u.out[n].restartAges
      else u.out[n].grow (u.gated n) := by
  simp only [tickAges, Fin.getElem_fin, Vector.getElem_ofFn]

theorem growAge_le (a : Nat) (h : a ≤ 255) : growAge a ≤ 255 := by
  unfold growAge; split <;> omega

theorem Output.grow_ages (o : Output) (level : Bool) (hi : o.ageHi ≤ 255) (lo : o.ageLo ≤ 255) :
    (o.grow level).ageHi ≤ 255 ∧ (o.grow level).ageLo ≤ 255 := by
  unfold Output.grow
  split
  · exact ⟨growAge_le _ hi, Nat.zero_le _⟩
  · exact ⟨Nat.zero_le _, growAge_le _ lo⟩

/-- The ages apart, an output keeps its settings at a tick. -/
theorem Output.grow_settings (o : Output) (level : Bool) :
    o.grow level = { o with ageHi := (o.grow level).ageHi, ageLo := (o.grow level).ageLo, afterTrip := false } := by
  unfold Output.grow; split <;> rfl

end Sys2Proof.Machine
end

