-- ==== Sys2Proof/Laws/Channels.lean ====
section
/-! SUPPORT. What CHANNEL CONTROL, TIMEBASE CONTROL and TRIP CONTROL do to one channel, one timebase and the latch. -/

namespace Sys2Proof.Machine

/-! ### CHANNEL CONTROL (R104 to R106, R108) -/

theorem State.arm_work (s : State) (n : Fin 6) : ChannelWork s (s.arm n) n :=
  (s.setChannel_work n _).trans (State.setRing_work _ n _)

theorem State.arm_get (s : State) (n : Fin 6) :
    (s.arm n).chn[n] = s.chn[n].rested .armed ∧ (s.arm n).rings[n] = s.rings[n].emptied ∧ (s.arm n).mge = s.mge := by
  refine ⟨?_, ?_, rfl⟩
  · simp only [State.arm, State.setRing_chn, State.setChannel_get, if_true]
  · simp only [State.arm, State.setRing_get, if_true, State.setChannel_rings]

theorem State.disable_work (s : State) (n : Fin 6) : ChannelWork s (s.disable n) n := by
  unfold State.disable
  split
  · exact .refl s n
  · exact (s.setChannel_work n _).trans (State.setRing_work _ n _)

theorem State.disable_get (s : State) (n : Fin 6) (h : s.chn[n].state ≠ .disabled) :
    (s.disable n).chn[n] = s.chn[n].rested .disabled ∧ (s.disable n).rings[n] = s.rings[n].emptied := by
  unfold State.disable
  rw [if_neg h]
  refine ⟨?_, ?_⟩
  · simp only [State.setRing_chn, State.setChannel_get, if_true]
  · simp only [State.setRing_get, if_true, State.setChannel_rings]

theorem State.clearSticky_work (s : State) (n : Fin 6) : ChannelWork s (s.clearSticky n) n := s.setChannel_work n _

/-- The three actions that a channel may refuse, over a set: refused with nothing changed, or the fold of the action. -/
theorem channelControl_cases (refusal : Channel → Option Result) (act : State → Fin 6 → State) (set : Byte) (o : Origin)
    (s : State) :
    (channelControl refusal act set o s).state = s ∨
    ((channelControl refusal act set o s).state = (selectedChannels set).foldl act s ∧
      (channelControl refusal act set o s).result = .done) := by
  unfold channelControl
  split
  · exact .inl rfl
  · split
    · exact .inl rfl
    · exact .inr ⟨rfl, rfl⟩

theorem enableChannels_work (set : Byte) (o : Origin) (s : State) : ChannelsWork s (enableChannels set o s).state := by
  rcases channelControl_cases enableRefusal State.arm set o s with h | ⟨h, _⟩
  · rw [enableChannels, h]; exact .refl s
  · rw [enableChannels, h]; exact .foldl _ (fun u n => (u.arm_work n).toChannelsWork) _ _

theorem disableChannels_work (set : Byte) (o : Origin) (s : State) : ChannelsWork s (disableChannels set o s).state := by
  rcases channelControl_cases (fun _ => none) State.disable set o s with h | ⟨h, _⟩
  · rw [disableChannels, h]; exact .refl s
  · rw [disableChannels, h]; exact .foldl _ (fun u n => (u.disable_work n).toChannelsWork) _ _

theorem clearFaultChannels_work (set : Byte) (o : Origin) (s : State) : ChannelsWork s (clearFaultChannels set o s).state := by
  rcases channelControl_cases clearFaultRefusal State.arm set o s with h | ⟨h, _⟩
  · rw [clearFaultChannels, h]; exact .refl s
  · rw [clearFaultChannels, h]; exact .foldl _ (fun u n => (u.arm_work n).toChannelsWork) _ _

theorem clearFlagsChannels_work (set : Byte) (o : Origin) (s : State) : ChannelsWork s (clearFlagsChannels set o s).state := by
  rcases channelControl_cases (fun _ => none) State.clearSticky set o s with h | ⟨h, _⟩
  · rw [clearFlagsChannels, h]; exact .refl s
  · rw [clearFlagsChannels, h]; exact .foldl _ (fun u n => (u.clearSticky_work n).toChannelsWork) _ _

/-! ### The trip latch (R141 to R143) -/

/-- Setting the latch: the latch, the flag TRIP, nothing else. -/
theorem State.setTrip_eq (s : State) : s.setTrip =
    { s with tiu := { s.tiu with latch := true }, mge := { s.mge with flags := s.mge.flags ||| (1#13 <<< 6) } } := rfl

/-- A sample that agrees, or does not complete its run, keeps the level (R139). -/
theorem Filter.sample_level (f : Filter) (v : Bool) : (f.sample v).level = f.level ∨ (f.sample v).level = v := by
  unfold Filter.sample
  split
  · exact .inl rfl
  · split
    · exact .inl rfl
    · exact .inr rfl

theorem Filter.sample_run (f : Filter) (v : Bool) (h : f.run < filterLength f.code) :
    (f.sample v).run < filterLength (f.sample v).code ∧ (f.sample v).code = f.code := by
  unfold Filter.sample
  split
  · exact ⟨Nat.lt_of_le_of_lt (Nat.zero_le _) h, rfl⟩
  · split
    · exact ⟨by assumption, rfl⟩
    · exact ⟨Nat.lt_of_le_of_lt (Nat.zero_le _) h, rfl⟩

/-- A sample of TRIPn touches the trip filter, the latch, the flag TRIP and the level last seen. -/
theorem State.sampleTrip_cases (s : State) (v : Bool) :
    let t := { s with tiu.trip := s.tiu.trip.sample v, pins.tripn := v }
    (s.tiu.trip.level = true ∧ (s.tiu.trip.sample v).level = false ∧ s.sampleTrip v = t.setTrip) ∨
    (¬(s.tiu.trip.level = true ∧ (s.tiu.trip.sample v).level = false) ∧ s.sampleTrip v = t) := by
  intro t
  unfold State.sampleTrip
  dsimp only
  split
  · exact .inl ⟨And.left ‹_›, And.right ‹_›, rfl⟩
  · exact .inr ⟨‹_›, rfl⟩

end Sys2Proof.Machine
end

