-- ==== Sys2Proof/Laws/Tables.lean ====
section
/-! SUPPORT. What a staged write, a commit and the holding list can do. -/

namespace Sys2Proof.Machine

/-! ### Staged writes (R48) -/

/-- A map entry goes to the staged bank alone. -/
theorem MapUnit.setStagedEntry_spec (m : MapUnit) (i : Nat) (e : MapEntry) :
    (m.setStagedEntry i e).stagedMap = m.stagedMap.setIfInBounds i e ∧
    (m.setStagedEntry i e).activeMap = m.activeMap ∧
    m.setStagedEntry i e = { m with mapA := (m.setStagedEntry i e).mapA, mapB := (m.setStagedEntry i e).mapB } := by
  obtain ⟨mapA, mapB, convA, convB, role, plan, snapshot, holding, lastCycle, report⟩ := m
  cases role <;> exact ⟨rfl, rfl, rfl⟩

/-- A conversion record goes to the staged bank alone. -/
theorem MapUnit.setStagedRecord_spec (m : MapUnit) (i : Nat) (c : ConvRecord) :
    (m.setStagedRecord i c).stagedConv = m.stagedConv.setIfInBounds i c ∧
    (m.setStagedRecord i c).activeConv = m.activeConv ∧
    m.setStagedRecord i c = { m with convA := (m.setStagedRecord i c).convA, convB := (m.setStagedRecord i c).convB } := by
  obtain ⟨mapA, mapB, convA, convB, role, plan, snapshot, holding, lastCycle, report⟩ := m
  cases role <;> exact ⟨rfl, rfl, rfl⟩

/-- After the exchange of R54 active and staged banks both hold what was staged. -/
theorem MapUnit.swap_spec (m : MapUnit) :
    m.swap = { m with role := m.role.other, mapA := m.stagedMap, mapB := m.stagedMap, convA := m.stagedConv,
                      convB := m.stagedConv } := by
  obtain ⟨mapA, mapB, convA, convB, role, plan, snapshot, holding, lastCycle, report⟩ := m
  cases role <;> rfl

/-- The active banks after a commit of any origin: as they were, or what was staged and passed validation. -/
theorem commit_active (o : Origin) (s : State) :
    ((commit o s).state.map.activeMap = s.map.activeMap ∧ (commit o s).state.map.activeConv = s.map.activeConv) ∨
    (s.map.validate = none ∧ (commit o s).state.map.activeMap = s.map.stagedMap ∧
      (commit o s).state.map.activeConv = s.map.stagedConv) := by
  have keeps : ∀ f r, (s.reportCommit o f r).map.activeMap = s.map.activeMap ∧
      (s.reportCommit o f r).map.activeConv = s.map.activeConv := by
    intro f r
    unfold State.reportCommit
    dsimp only
    split <;> exact ⟨rfl, rfl⟩
  unfold commit
  split
  · exact .inl (keeps _ _)
  · split
    · exact .inl (keeps _ _)
    · refine .inr ⟨‹_›, ?_, ?_⟩ <;>
      · simp only [doneWith, State.reportCommit, MapUnit.swap_spec, Bool.false_and]
        cases s.map.role <;> rfl

/-! ### The holding list (R70) -/

theorem State.processWrite_work (s : State) (w : PendingWrite) : ChannelsWork s (s.processWrite w) := by
  unfold State.processWrite
  split
  · exact (s.feed_work _ _ _ _).toChannelsWork
  · exact .refl s

/-- The good end of a DATA telegram in MAP: the plan dropped and the last cycle number taken, over channel work. -/
theorem State.processHolding_work (s : State) (cycle : Byte) : ∃ u, ChannelsWork s u ∧
    s.processHolding cycle = { u with map := { s.map with
      plan := none, snapshot := none, holding := []
      lastCycle := if s.map.holding.isEmpty then s.map.lastCycle else cycle } } := by
  refine ⟨s.map.holding.foldl State.processWrite s, ChannelsWork.foldl _ State.processWrite_work _ _, ?_⟩
  have map := (ChannelsWork.foldl _ State.processWrite_work s.map.holding s).blocks.2.2.1
  unfold State.processHolding State.dropPlan
  dsimp only
  split <;> simp only [map]

/-! ### Captures (R154) -/

@[simp] theorem State.dropCaptures_capture (s : State) (k : Fin 2) : s.dropCaptures.lch[k].capture = none := by
  simp [State.dropCaptures]

/-- Dropping a capture leaves the rest of the load channel. -/
theorem State.dropCaptures_get (s : State) (k : Fin 2) : s.dropCaptures.lch[k] = { s.lch[k] with capture := none } := by
  simp [State.dropCaptures]

/-- A repeated chunk is ignored, and a load channel outside ACTIVE judges nothing (R160; log 19). -/
theorem State.judge_of_not_active (s : State) (k : Fin 2) (h : s.lch[k].state ≠ .active) : s.judge k = s := by
  unfold State.judge
  dsimp only
  split
  · simp only [if_pos (Or.inl h)]
  · rfl

end Sys2Proof.Machine
end

