-- ==== Sys2Proof/Laws/Loads.lean ====
section
/-! SUPPORT. What the work of LCH at the good end of a DATA telegram can do. -/

namespace Sys2Proof.Machine

/-! ### Work of LCH -/

/-- The two states agree in every block but MAP's banks, role and report, the load channels, and the attention flags. -/
structure LoadsWork (s u : State) : Prop where
  mge : u.mge = { s.mge with flags := u.mge.flags }
  map : u.map = { s.map with mapA := u.map.mapA, mapB := u.map.mapB, convA := u.map.convA, convB := u.map.convB,
                             role := u.map.role, report := u.map.report }
  blocks : u.lrx = s.lrx ∧ u.fwd = s.fwd ∧ u.rings = s.rings ∧ u.chn = s.chn ∧ u.tb = s.tb ∧ u.out = s.out ∧ u.tiu = s.tiu
  rest : u.pins = s.pins ∧ u.free = s.free ∧ u.pending = s.pending

theorem LoadsWork.refl (s : State) : LoadsWork s s := ⟨rfl, rfl, ⟨rfl, rfl, rfl, rfl, rfl, rfl, rfl⟩, rfl, rfl, rfl⟩

theorem LoadsWork.trans {s u v : State} (h : LoadsWork s u) (k : LoadsWork u v) : LoadsWork s v := by
  obtain ⟨a, b, ⟨c1, c2, c3, c4, c5, c6, c7⟩, d1, d2, d3⟩ := h
  obtain ⟨a', b', ⟨e1, e2, e3, e4, e5, e6, e7⟩, f1, f2, f3⟩ := k
  refine ⟨?_, ?_, ⟨e1.trans c1, e2.trans c2, e3.trans c3, e4.trans c4, e5.trans c5, e6.trans c6, e7.trans c7⟩,
    f1.trans d1, f2.trans d2, f3.trans d3⟩
  · rw [a', a]
  · rw [b', b]

theorem State.setLoad_work (s : State) (k : Fin 2) (l : LoadChannel) : LoadsWork s (s.setLoad k l) :=
  ⟨rfl, rfl, ⟨rfl, rfl, rfl, rfl, rfl, rfl, rfl⟩, rfl, rfl, rfl⟩

theorem State.setFlag_loads (s : State) (a : Attention) : LoadsWork s (s.setFlag a) :=
  ⟨rfl, rfl, ⟨rfl, rfl, rfl, rfl, rfl, rfl, rfl⟩, rfl, rfl, rfl⟩

/-! ### Records of a chunk (R161) -/

/-- A stored record goes to the staged bank of its table. -/
theorem storeRecord_banks (target : LoadTarget) (i : Nat) (bytes : List Byte) (m m' : MapUnit)
    (h : storeRecord target i bytes m = some m') :
    m'.activeMap = m.activeMap ∧ m'.activeConv = m.activeConv ∧
    m' = { m with mapA := m'.mapA, mapB := m'.mapB, convA := m'.convA, convB := m'.convB } := by
  obtain ⟨mapA, mapB, convA, convB, role, plan, snapshot, holding, lastCycle, report⟩ := m
  unfold storeRecord at h
  cases target <;> dsimp only at h <;> split at h
  · obtain rfl := Option.some.inj h; cases role <;> exact ⟨rfl, rfl, rfl⟩
  · exact nomatch h
  · obtain rfl := Option.some.inj h; cases role <;> exact ⟨rfl, rfl, rfl⟩
  · exact nomatch h

/-- The records of a chunk go to the staged bank; the next index grows and stays inside the load. -/
theorem writeRecords_spec (d : Descriptor) (j : Nat) (bytes : List Byte) (e : Nat) (m : MapUnit) :
    (writeRecords d j bytes e m).map.activeMap = m.activeMap ∧ (writeRecords d j bytes e m).map.activeConv = m.activeConv ∧
    (writeRecords d j bytes e m).map = { m with
      mapA := (writeRecords d j bytes e m).map.mapA, mapB := (writeRecords d j bytes e m).map.mapB
      convA := (writeRecords d j bytes e m).map.convA, convB := (writeRecords d j bytes e m).map.convB } ∧
    e ≤ (writeRecords d j bytes e m).next ∧ (e ≤ d.limit → (writeRecords d j bytes e m).next ≤ d.limit) := by
  induction j generalizing bytes e m with
  | zero => exact ⟨rfl, rfl, rfl, Nat.le_refl _, id⟩
  | succ j ih =>
    unfold writeRecords
    split
    · rename_i he
      split
      · rename_i m' hm
        obtain ⟨a, b, c⟩ := storeRecord_banks _ _ _ _ _ hm
        obtain ⟨a', b', c', n, l⟩ := ih (bytes.drop d.target.recordSize) (e + 1) m'
        refine ⟨a'.trans a, b'.trans b, ?_, by omega, fun _ => l (by omega)⟩
        rw [c', c]
      · exact ⟨rfl, rfl, rfl, Nat.le_refl _, id⟩
    · exact ⟨rfl, rfl, rfl, Nat.le_refl _, id⟩

theorem State.judge_work (s : State) (k : Fin 2) : LoadsWork s (s.judge k) := by
  unfold State.judge
  dsimp only
  split
  · split
    · exact .refl s
    · split
      · exact s.setLoad_work k _
      · refine ⟨rfl, ?_, ⟨rfl, rfl, rfl, rfl, rfl, rfl, rfl⟩, rfl, rfl, rfl⟩
        have h := (writeRecords_spec ‹Descriptor› (Descriptor.perChunk ‹_›) ‹List Byte› (s.lch[k]).next s.map).2.2.1
        simp only [State.setLoad_map]
        rw [h]
  · exact .refl s

theorem State.loadFlags_work (before s : State) (k : Fin 2) : LoadsWork s (State.loadFlags before s k) := by
  unfold State.loadFlags
  dsimp only
  split <;> split <;> first
    | exact .refl s
    | exact State.setFlag_loads _ _
    | exact (State.setFlag_loads _ _).trans (State.setFlag_loads _ _)

theorem State.cancelWaiting_work (s : State) : LoadsWork s s.cancelWaiting := by
  unfold State.cancelWaiting
  split
  · exact s.setLoad_work 1 _
  · exact .refl s

theorem State.chain_work (before s : State) : LoadsWork s (State.chain before s) := by
  unfold State.chain
  split
  · split
    · exact s.setLoad_work 1 _
    · exact .refl s
  · split
    · exact s.cancelWaiting_work
    · exact .refl s

theorem State.reportCommit_work (s : State) (o : Origin) (failed : Bool) (r : CommitReport) :
    LoadsWork s (s.reportCommit o failed r) := by
  unfold State.reportCommit
  dsimp only
  split <;> exact ⟨rfl, rfl, ⟨rfl, rfl, rfl, rfl, rfl, rfl, rfl⟩, rfl, rfl, rfl⟩

/-- A commit of any origin leaves the load channels and everything outside MAP and the attention flags. -/
theorem commit_work (o : Origin) (s : State) : LoadsWork s (commit o s).state ∧ (commit o s).state.lch = s.lch := by
  have lch : ∀ (u : State) f r, (u.reportCommit o f r).lch = u.lch := by
    intro u f r
    unfold State.reportCommit
    dsimp only
    split <;> rfl
  unfold commit
  split
  · exact ⟨s.reportCommit_work o _ _, lch _ _ _⟩
  · split
    · exact ⟨s.reportCommit_work o _ _, lch _ _ _⟩
    · have swapped : LoadsWork s { s with map := s.map.swap } :=
        ⟨rfl, by simp only [MapUnit.swap_spec], ⟨rfl, rfl, rfl, rfl, rfl, rfl, rfl⟩, rfl, rfl, rfl⟩
      exact ⟨swapped.trans (State.reportCommit_work { s with map := s.map.swap } o false (.done o)), lch _ _ _⟩

/-- The work of LCH at the good end of a DATA telegram (R159). -/
theorem State.loadsAtEnd_work (s : State) : LoadsWork s s.loadsAtEnd := by
  have dropped : ∀ u : State, LoadsWork u u.dropCaptures := fun u =>
    ⟨rfl, rfl, ⟨rfl, rfl, rfl, rfl, rfl, rfl, rfl⟩, rfl, rfl, rfl⟩
  have chained := ((((s.judge_work 0).trans (State.judge_work _ 1)).trans (State.loadFlags_work s _ 0)).trans
    (State.loadFlags_work s _ 1)).trans (State.chain_work s _)
  unfold State.loadsAtEnd
  dsimp only
  refine LoadsWork.trans ?_ (dropped _)
  split
  · exact chained.trans (commit_work .auto _).1
  · exact chained

end Sys2Proof.Machine
end

