-- ==== Sys2Proof/Laws/Management.lean ====
section
/-! SUPPORT. The two carriers of a management row, and what recording an answer leaves. -/

namespace Sys2Proof.Machine

/-! ### The answer (R168 (5), R176) -/

@[simp] theorem Executed.record_lrx (r : Executed) : r.record.lrx = r.state.lrx := rfl
@[simp] theorem Executed.record_fwd (r : Executed) : r.record.fwd = r.state.fwd := rfl
@[simp] theorem Executed.record_map (r : Executed) : r.record.map = r.state.map := rfl
@[simp] theorem Executed.record_rings (r : Executed) : r.record.rings = r.state.rings := rfl
@[simp] theorem Executed.record_chn (r : Executed) : r.record.chn = r.state.chn := rfl
@[simp] theorem Executed.record_tb (r : Executed) : r.record.tb = r.state.tb := rfl
@[simp] theorem Executed.record_out (r : Executed) : r.record.out = r.state.out := rfl
@[simp] theorem Executed.record_tiu (r : Executed) : r.record.tiu = r.state.tiu := rfl
@[simp] theorem Executed.record_lch (r : Executed) : r.record.lch = r.state.lch := rfl
@[simp] theorem Executed.record_pins (r : Executed) : r.record.pins = r.state.pins := rfl
@[simp] theorem Executed.record_free (r : Executed) : r.record.free = r.state.free := rfl
@[simp] theorem Executed.record_pending (r : Executed) : r.record.pending = r.state.pending := rfl
@[simp] theorem Executed.record_flags (r : Executed) : r.record.mge.flags = r.state.mge.flags := rfl
@[simp] theorem Executed.record_mask (r : Executed) : r.record.mge.mask = r.state.mge.mask := rfl
@[simp] theorem Executed.record_restart (r : Executed) : r.record.mge.restart = r.state.mge.restart := rfl
@[simp] theorem Executed.record_answer (r : Executed) :
    r.record.mge.answer = some (.mgmt r.result r.state.summary r.reply) := rfl

/-! ### Carriers (R168, R171) -/

@[simp] theorem carried_held (p : Bool) (rule : Rule) (s : State) : carried .held p rule s = (rule .command s).record := rfl

@[simp] theorem carried_broadcast (rule : Rule) (s : State) : carried .broadcast true rule s = (rule .broadcast s).state := rfl

@[simp] theorem carried_ignored (rule : Rule) (s : State) : carried .broadcast false rule s = s := rfl

/-- An ignored broadcast is no change at all, whatever RSTn. -/
theorem event_ignored (rule : Rule) (s : State) : event (carried .broadcast false rule) s = .next s := by
  unfold event
  split
  · rfl
  · rw [carried_ignored, settleEdges_self]

/-- A held row whose rule leaves the timebases, the channels, the outputs and TIU. -/
theorem event_held_of_blocks (p : Bool) (rule : Rule) (s : State) (h : s.pins.rstn = true)
    (tb : (rule .command s).state.tb = s.tb) (chn : (rule .command s).state.chn = s.chn)
    (out : (rule .command s).state.out = s.out) (tiu : (rule .command s).state.tiu = s.tiu) :
    event (carried .held p rule) s = .next (rule .command s).record :=
  event_of_blocks (carried .held p rule) s h tb chn out tiu

/-! ### The command table (R169) -/

/-- A code without a row in R169 is refused. -/
theorem executeHeld_unknown (payload : List Byte) (s : State) (h : commandShape (byteAt payload 0).toNat = none) :
    executeHeld payload s = ⟨s, .unknownCommand, []⟩ := by
  unfold executeHeld; simp only [h]; rfl

end Sys2Proof.Machine
end

