-- ==== Sys2Proof/Laws/Ops.lean ====
section
/-! SUPPORT. What the shared line operations can do: counted errors, entry into the forward FIFO, and what they leave. -/

namespace Sys2Proof.Machine

/-! ### Numbers -/

theorem saturate16_le (n : Nat) (h : n ≤ 65535) : saturate16 n ≤ 65535 := by
  unfold saturate16; split <;> omega

theorem leBytes_length (n v : Nat) : (leBytes n v).length = n := by
  induction n generalizing v with
  | zero => rfl
  | succ n ih => simp [leBytes, ih]

/-! ### What line operations leave -/

/-- The two states agree in every block but LRX's counters, the attention flags, and FWD. -/
structure LineWork (s u : State) : Prop where
  lrx : u.lrx = { s.lrx with counters := u.lrx.counters }
  mge : u.mge = { s.mge with flags := u.mge.flags }
  blocks : u.map = s.map ∧ u.rings = s.rings ∧ u.chn = s.chn ∧ u.tb = s.tb ∧ u.out = s.out ∧ u.tiu = s.tiu ∧ u.lch = s.lch
  rest : u.pins = s.pins ∧ u.free = s.free ∧ u.pending = s.pending

theorem LineWork.refl (s : State) : LineWork s s := ⟨rfl, rfl, ⟨rfl, rfl, rfl, rfl, rfl, rfl, rfl⟩, rfl, rfl, rfl⟩

theorem LineWork.trans {s u v : State} (h : LineWork s u) (k : LineWork u v) : LineWork s v := by
  obtain ⟨a, b, ⟨c1, c2, c3, c4, c5, c6, c7⟩, d1, d2, d3⟩ := h
  obtain ⟨a', b', ⟨e1, e2, e3, e4, e5, e6, e7⟩, f1, f2, f3⟩ := k
  refine ⟨?_, ?_, ⟨e1.trans c1, e2.trans c2, e3.trans c3, e4.trans c4, e5.trans c5, e6.trans c6, e7.trans c7⟩,
    f1.trans d1, f2.trans d2, f3.trans d3⟩
  · rw [a', a]
  · rw [b', b]

/-! ### Counted errors (R19, R20) -/

theorem State.countError_work (s : State) (e : LineError) : LineWork s (s.countError e) :=
  ⟨rfl, rfl, ⟨rfl, rfl, rfl, rfl, rfl, rfl, rfl⟩, rfl, rfl, rfl⟩

@[simp] theorem State.countError_fwd (s : State) (e : LineError) : (s.countError e).fwd = s.fwd := rfl

@[simp] theorem State.countError_counters (s : State) (e : LineError) :
    (s.countError e).lrx.counters = s.lrx.counters.set e.index (saturate16 s.lrx.counters[e.index]) := rfl

@[simp] theorem State.countError_flags (s : State) (e : LineError) :
    (s.countError e).mge.flags = s.mge.flags ||| (1#13 <<< 11) := rfl

theorem State.countError_le (s : State) (e : LineError) (h : ∀ i : Fin 6, s.lrx.counters[i] ≤ 65535) (i : Fin 6) :
    (s.countError e).lrx.counters[i] ≤ 65535 := by
  simp only [State.countError_counters, Fin.getElem_fin, Vector.getElem_set]
  split
  · exact saturate16_le _ (h e.index)
  · exact h i

/-! ### The forward FIFO (R27, R29, R30) -/

theorem State.enterFifo_work (s : State) (cs : List LineChar) : LineWork s (s.enterFifo cs) := by
  unfold State.enterFifo; dsimp only; split
  · exact ⟨rfl, rfl, ⟨rfl, rfl, rfl, rfl, rfl, rfl, rfl⟩, rfl, rfl, rfl⟩
  · exact ⟨rfl, rfl, ⟨rfl, rfl, rfl, rfl, rfl, rfl, rfl⟩, rfl, rfl, rfl⟩

/-- With room for all, the characters enter whole and nothing is counted. -/
theorem State.enterFifo_fits (s : State) (cs : List LineChar) (h : s.fits cs = true) :
    s.enterFifo cs = { s with
      fwd.fifo := s.fwd.fifo ++ cs
      fwd.highWater := max s.fwd.highWater (s.fwd.fifo.length + cs.length) } := by
  have room : cs.length ≤ Config.fifoCapacity - s.level := by
    have := of_decide_eq_true h; omega
  simp [State.enterFifo, h, List.take_of_length_le room]

/-- What an entry leaves of FWD: its characters, its high-water mark, and the rest as it was. -/
theorem State.enterFifo_fwd (s : State) (cs : List LineChar) :
    (s.enterFifo cs).fwd = { s.fwd with
      fifo := s.fwd.fifo ++ cs.take (Config.fifoCapacity - s.level)
      highWater := max s.fwd.highWater (s.fwd.fifo ++ cs.take (Config.fifoCapacity - s.level)).length } := by
  unfold State.enterFifo; dsimp only; split <;> rfl

/-- The FIFO never holds more than its places. -/
theorem State.enterFifo_level (s : State) (cs : List LineChar) (h : s.level ≤ Config.fifoCapacity) :
    (s.enterFifo cs).level ≤ Config.fifoCapacity := by
  simp only [State.level, State.enterFifo_fwd, List.length_append, List.length_take] at *; omega

theorem State.passChars_work (s : State) (cs : List LineChar) : LineWork s (s.passChars cs) := by
  unfold State.passChars; split
  · exact s.enterFifo_work cs
  · exact (s.enterFifo_work cs).trans ⟨rfl, rfl, ⟨rfl, rfl, rfl, rfl, rfl, rfl, rfl⟩, rfl, rfl, rfl⟩

theorem State.passChars_fits (s : State) (cs : List LineChar) (h : s.fits cs = true) : s.passChars cs = s.enterFifo cs := by
  simp [State.passChars, h]

/-- A full FIFO puts FWD in CUT (R29 (2)). -/
theorem State.passChars_cut (s : State) (cs : List LineChar) (h : s.fits cs = false) :
    (s.passChars cs).fwd.state = .cut := by
  simp [State.passChars, h]

end Sys2Proof.Machine
end

