-- ==== Sys2Proof/Laws/DriveLine.lean ====
section
/-! SUPPORT. What the operations of LRX and FWD can do (chapters 1 and 2). -/

namespace Sys2Proof.Machine

/-! ### Closing and aborting (R25, R26, R34, R35) -/

theorem State.closeForward_eq (s : State) : s.closeForward =
    { s with fwd := { s.fwd with state := .idle, stage := [], hold := [], changed := false, acc := 0xFFFF } } := rfl

theorem State.closeForward_work (s : State) : LineWork s s.closeForward :=
  ⟨rfl, rfl, ⟨rfl, rfl, rfl, rfl, rfl, rfl, rfl⟩, rfl, rfl, rfl⟩

theorem State.abortForward_work (s : State) : LineWork s s.abortForward := by
  unfold State.abortForward
  split
  · exact (s.enterFifo_work _).trans (State.closeForward_work _)
  all_goals exact ⟨rfl, rfl, ⟨rfl, rfl, rfl, rfl, rfl, rfl, rfl⟩, rfl, rfl, rfl⟩

/-- After an abort FWD holds nothing of the telegram but what stands in the FIFO. -/
theorem State.abortForward_fwd (s : State) : s.abortForward.fwd.state = .idle ∧ s.abortForward.fwd.stage = [] ∧
    s.abortForward.fwd.hold = [] ∧ s.abortForward.fwd.changed = false ∧ s.abortForward.fwd.acc = 0xFFFF := by
  unfold State.abortForward
  split <;> exact ⟨rfl, rfl, rfl, rfl, rfl⟩

/-- An abort leaves the channels, rings, timebases, outputs and inputs, and no DATA work in progress. -/
theorem State.abortTelegram_frame (s : State) (e : LineError) :
    (s.abortTelegram e).rings = s.rings ∧ (s.abortTelegram e).chn = s.chn ∧ (s.abortTelegram e).tb = s.tb ∧
    (s.abortTelegram e).out = s.out ∧ (s.abortTelegram e).tiu = s.tiu ∧ (s.abortTelegram e).pins = s.pins ∧
    (s.abortTelegram e).map = { s.map with plan := none, snapshot := none, holding := [] } ∧
    (s.abortTelegram e).lch = s.lch.map (fun l => { l with capture := none }) ∧
    (s.abortTelegram e).lrx.parser = .skip ∧ (s.abortTelegram e).lrx.gap = none := by
  obtain ⟨map, rings, chn, tb, out, tiu, lch⟩ := s.abortForward_work.blocks
  have pins := s.abortForward_work.rest.1
  refine ⟨rings, chn, tb, out, tiu, pins, ?_, ?_, rfl, rfl⟩
  · show ({ s.abortForward.map with plan := none, snapshot := none, holding := [] } : MapUnit) = _
    rw [map]
  · show s.abortForward.lch.map _ = _
    rw [lch]

/-! ### Forwarding (R26, R31, R32, R35) -/

theorem State.setFwd_work (s : State) (f : Fwd) : LineWork s { s with fwd := f } :=
  ⟨rfl, rfl, ⟨rfl, rfl, rfl, rfl, rfl, rfl, rfl⟩, rfl, rfl, rfl⟩

theorem State.releaseHeader_work (s : State) (t : Treatment) (cs : List LineChar) : LineWork s (s.releaseHeader t cs) := by
  unfold State.releaseHeader
  split
  · exact s.setFwd_work _
  all_goals exact (s.setFwd_work _).trans (State.passChars_work { s with fwd := _ } cs)

theorem State.substitute_work (s : State) (t : Telegram) (pos : Nat) (c : LineChar) : LineWork s (s.substitute t pos c) := by
  unfold State.substitute
  split
  all_goals exact (s.setFwd_work _).trans (State.passChars_work { s with fwd := _ } _)

theorem State.forwardPayload_work (s : State) (t : Telegram) (pos : Nat) (c : LineChar) :
    LineWork s (s.forwardPayload t pos c) := by
  unfold State.forwardPayload
  split
  · exact s.substitute_work t pos c
  all_goals exact ⟨rfl, rfl, ⟨rfl, rfl, rfl, rfl, rfl, rfl, rfl⟩, rfl, rfl, rfl⟩

theorem State.endPassing_work (s : State) (good : Bool) (first : Byte) (c : LineChar) :
    LineWork s (s.endPassing good first c) := by
  unfold State.endPassing
  dsimp only
  exact ((s.setFwd_work _).trans (State.enterFifo_work { s with fwd := _ } _)).trans (State.closeForward_work _)

/-! ### Bytes written into a held telegram (R37) -/

theorem overwrite_length (i : Nat) (bs : List Byte) (cs : List LineChar) : (overwrite i bs cs).length = cs.length := by
  induction bs generalizing i cs with
  | nil => rfl
  | cons b bs ih => simp only [overwrite, ih, List.length_modify]

theorem regenerate_length (cs : List LineChar) : (regenerate cs).length = cs.length := overwrite_length _ _ _

/-- Times, marker bits and wait marks stay. -/
theorem overwrite_marks (i : Nat) (bs : List Byte) (cs : List LineChar) (h : ∀ c ∈ cs, c.wait = false) :
    ∀ c ∈ overwrite i bs cs, c.wait = false := by
  induction bs generalizing i cs with
  | nil => exact h
  | cons b bs ih =>
    refine ih (i + 1) _ ?_
    intro c hc
    obtain ⟨k, hk, rfl⟩ := List.mem_iff_getElem.mp hc
    rw [List.length_modify] at hk
    have old := h cs[k] (List.getElem_mem hk)
    rw [List.getElem_modify]
    split
    · exact old
    · exact old

/-! ### TXO (R28) -/

/-- TXO begins the head character, or nothing changes. -/
theorem State.beginSending_cases (s : State) (time : Nat) :
    s.beginSending time = s ∨ ∃ c rest, s.fwd.txo = .idle ∧ s.fwd.fifo = c :: rest ∧ c.wait = false ∧
      c.time + 2 * charClocks s.lrx.rate ≤ time ∧
      s.beginSending time = { s with fwd := { s.fwd with fifo := rest, txo := .sending c time } } := by
  unfold State.beginSending
  split
  · rename_i c rest idle fifo
    split
    · rename_i h
      have e := of_decide_eq_true h.1
      exact .inr ⟨c, rest, idle, fifo, e.1, e.2, rfl⟩
    · exact .inl rfl
  · exact .inl rfl

end Sys2Proof.Machine
end

