-- ==== Sys2Proof/Laws/Pins.lean ====
section
/-! SUPPORT. What stands at the pins of a channel: the cases of R133 and R135, and the levels between two events of one moment. -/

namespace Sys2Proof.Machine

theorem State.pinWith_low (s : State) (n : Fin 6) (side : Side) (driven : Bool) (h : s.pins.rstn = false) :
    s.pinWith n side driven = .highZ := by
  simp only [State.pinWith, h, if_true]

theorem State.pinWith_forced (s : State) (n : Fin 6) (side : Side) (driven : Bool) (high : s.pins.rstn = true)
    (h : s.forced n = true) : s.pinWith n side driven = (s.out[n].safeLevel side).level (s.out[n].polarity side) := by
  simp [State.pinWith, high, h]

theorem State.pinWith_driven (s : State) (n : Fin 6) (side : Side) (driven : Bool) (high : s.pins.rstn = true)
    (h : s.forced n = false) : s.pinWith n side driven = (s.out[n].polarity side).level driven := by
  simp [State.pinWith, high, h]

/-- The logical levels of a channel are never both active (R129). -/
theorem State.logical_apart (s : State) (n : Fin 6) : ¬(s.logical n .hi = true ∧ s.logical n .lo = true) := by
  simp only [State.logical]
  cases s.gated n <;> simp

theorem State.pins_forced (s : State) (n : Fin 6) (high : s.pins.rstn = true) (h : s.forced n = true) :
    s.pinHi n = s.out[n].safeHi.level s.out[n].polHi ∧ s.pinLo n = s.out[n].safeLo.level s.out[n].polLo :=
  ⟨s.pinWith_forced n .hi _ high h, s.pinWith_forced n .lo _ high h⟩

theorem State.pins_driven (s : State) (n : Fin 6) (high : s.pins.rstn = true) (h : s.forced n = false) :
    s.pinHi n = s.out[n].polHi.level (s.logical n .hi) ∧ s.pinLo n = s.out[n].polLo.level (s.logical n .lo) :=
  ⟨s.pinWith_driven n .hi _ high h, s.pinWith_driven n .lo _ high h⟩

theorem State.pinBetween_of_unmarked (s : State) (n : Fin 6) (h : s.out[n].afterTrip = false) :
    s.pinBetween n .hi = s.pinHi n ∧ s.pinBetween n .lo = s.pinLo n := by
  simp only [State.pinBetween, State.pinHi, State.pinLo, h, Bool.not_false, Bool.and_true, and_self]

end Sys2Proof.Machine
end

