-- ==== Sys2Proof/Laws/Rules.lean ====
section
/-! SUPPORT. What carrying out a management command can do, whatever the command: it never touches the receiver, the parser,
the forwarding of characters, the telegram in progress, the pins or the queue. -/

namespace Sys2Proof.Machine

/-- What no command touches, by the fields that may change. -/
structure RuleWork (s u : State) : Prop where
  lrx : u.lrx = { s.lrx with counters := u.lrx.counters, address := u.lrx.address }
  fwd : u.fwd = { s.fwd with highWater := u.fwd.highWater }
  map : u.map = { s.map with mapA := u.map.mapA, mapB := u.map.mapB, convA := u.map.convA, convB := u.map.convB,
                             role := u.map.role, report := u.map.report }
  answer : u.mge.answer = s.mge.answer
  captures : ∀ k : Fin 2, u.lch[k].capture = s.lch[k].capture
  rest : u.pins = s.pins ∧ u.free = s.free ∧ u.pending = s.pending

theorem RuleWork.refl (s : State) : RuleWork s s := ⟨rfl, rfl, rfl, rfl, fun _ => rfl, rfl, rfl, rfl⟩

theorem RuleWork.trans {s u v : State} (h : RuleWork s u) (k : RuleWork u v) : RuleWork s v := by
  obtain ⟨a, b, c, d, e, f1, f2, f3⟩ := h
  obtain ⟨a', b', c', d', e', g1, g2, g3⟩ := k
  refine ⟨?_, ?_, ?_, d'.trans d, fun k => (e' k).trans (e k), g1.trans f1, g2.trans f2, g3.trans f3⟩
  · rw [a', a]
  · rw [b', b]
  · rw [c', c]

theorem RuleWork.foldl {α : Type} (f : State → α → State) (h : ∀ s a, RuleWork s (f s a)) (l : List α) (s : State) :
    RuleWork s (l.foldl f s) := by
  induction l generalizing s with
  | nil => exact .refl s
  | cons a l ih => exact (h s a).trans (ih (f s a))

theorem ChannelsWork.toRule {s u : State} (h : ChannelsWork s u) : RuleWork s u := by
  obtain ⟨mge, ⟨lrx, fwd, map, _, _, _, lch⟩, rest⟩ := h
  refine ⟨?_, ?_, ?_, ?_, fun k => ?_, rest⟩
  · rw [lrx]
  · rw [fwd]
  · rw [map]
  · rw [mge]
  · rw [lch]

/-- Work of LCH that keeps the captures. -/
theorem LoadsWork.toRule {s u : State} (h : LoadsWork s u) (captures : ∀ k : Fin 2, u.lch[k].capture = s.lch[k].capture) :
    RuleWork s u := by
  obtain ⟨mge, map, ⟨lrx, fwd, _, _, _, _, _⟩, rest⟩ := h
  refine ⟨?_, ?_, map, ?_, captures, rest⟩
  · rw [lrx]
  · rw [fwd]
  · rw [mge]

/-! ### Updates of the other records -/

theorem State.setTimebase_rule (s : State) (t : Fin 2) (b : Timebase) : RuleWork s (s.setTimebase t b) :=
  ⟨rfl, rfl, rfl, rfl, fun _ => rfl, rfl, rfl, rfl⟩

theorem State.setOutput_rule (s : State) (n : Fin 6) (o : Output) : RuleWork s (s.setOutput n o) :=
  ⟨rfl, rfl, rfl, rfl, fun _ => rfl, rfl, rfl, rfl⟩

theorem State.setTiu_rule (s : State) (u : Tiu) : RuleWork s { s with tiu := u } :=
  ⟨rfl, rfl, rfl, rfl, fun _ => rfl, rfl, rfl, rfl⟩

theorem State.setLoad_rule (s : State) (k : Fin 2) (l : LoadChannel) (h : l.capture = s.lch[k].capture) :
    RuleWork s (s.setLoad k l) := by
  refine (s.setLoad_work k l).toRule fun j => ?_
  rw [State.setLoad_get]
  split
  · subst_vars; exact h
  · rfl

theorem State.boundary_rule (s : State) (t : Fin 2) : RuleWork s (s.boundary t) :=
  (s.setTimebase_rule t _).trans (s.boundary_work t).toRule

theorem State.startTimebase_rule (s : State) (t : Fin 2) : RuleWork s (s.startTimebase t) := by
  unfold State.startTimebase
  refine RuleWork.trans ?_ (RuleWork.foldl _ (fun u n => u.setOutput_rule n _) _ _)
  exact (s.setTimebase_rule t _).trans (State.boundary_rule _ t)

/-! ### Each rule -/

/-- A refusal changes nothing. -/
theorem refuse_rule (r : Result) (s : State) (reply : List Byte) : RuleWork s (refuse r s reply).state := .refl s

theorem acknowledgeAttention_rule (set : Half) (o : Origin) (s : State) : RuleWork s (acknowledgeAttention set o s).state := by
  unfold acknowledgeAttention
  split
  · exact .refl s
  · exact ⟨rfl, rfl, rfl, rfl, fun _ => rfl, rfl, rfl, rfl⟩

theorem readParameter_rule (number : Half) (o : Origin) (s : State) : (readParameter number o s).state = s := by
  unfold readParameter
  split <;> rfl

theorem Param.write_rule (p : Param) (v : Word) (o : Origin) (s : State) : RuleWork s (p.write v o s).state := by
  cases p with
  | attentionMask =>
    show RuleWork s (writeAttentionMask v o s).state
    unfold writeAttentionMask
    split
    · exact .refl s
    · exact ⟨rfl, rfl, rfl, rfl, fun _ => rfl, rfl, rfl, rfl⟩
  | tripFilter =>
    show RuleWork s (writeTripFilter v o s).state
    unfold writeTripFilter
    split
    · exact .refl s
    · split
      · exact .refl s
      · exact s.setTiu_rule _
  | inputFilter k =>
    show RuleWork s (writeInputFilter k v o s).state
    unfold writeInputFilter
    split
    · exact .refl s
    · exact s.setTiu_rule _
  | period t =>
    show RuleWork s (writePeriod t v o s).state
    unfold writePeriod
    split
    · exact .refl s
    · split
      · exact .refl s
      · exact s.setTimebase_rule t _
  | prescaler t =>
    show RuleWork s (writePrescaler t v o s).state
    unfold writePrescaler
    split
    · exact .refl s
    · split
      · exact .refl s
      · exact s.setTimebase_rule t _
  | deadTime n =>
    show RuleWork s (writeDeadTime n v o s).state
    unfold writeDeadTime
    split
    · exact .refl s
    · exact s.setOutput_rule n _
  | polarity n =>
    show RuleWork s (writePolarity n v o s).state
    unfold writePolarity
    split
    · exact .refl s
    · split
      · exact .refl s
      · exact s.setOutput_rule n _
  | safeLevels n =>
    show RuleWork s (writeSafeLevels n v o s).state
    unfold writeSafeLevels
    split
    · exact .refl s
    · split
      · split
        · exact .refl s
        · exact s.setOutput_rule n _
      · exact .refl s
  | gate n =>
    show RuleWork s (writeGate n v o s).state
    unfold writeGate
    split
    · exact .refl s
    · split
      · exact s.setOutput_rule n _
      · exact .refl s
  | tripEnable n =>
    show RuleWork s (writeTripEnable n v o s).state
    unfold writeTripEnable
    split
    · exact .refl s
    · show RuleWork s (s.setTripEnable n (v.getLsbD 0))
      unfold State.setTripEnable
      dsimp only
      split
      · exact (s.setTiu_rule _).trans (State.setOutput_rule { s with tiu := _ } n _)
      · exact s.setTiu_rule _
  | ringMode n =>
    show RuleWork s (writeRingMode n v o s).state
    unfold writeRingMode
    split
    · exact .refl s
    · split
      · exact .refl s
      · split
        · exact .refl s
        · exact (s.setRing_work n _).toChannelsWork.toRule
  | ringDepth n =>
    show RuleWork s (writeRingDepth n v o s).state
    unfold writeRingDepth
    split
    · exact .refl s
    · split
      · exact .refl s
      · split
        · exact .refl s
        · exact (s.setRing_work n _).toChannelsWork.toRule
  | exceptionMask n =>
    show RuleWork s (writeExceptionMask n v o s).state
    unfold writeExceptionMask
    split
    · exact .refl s
    · exact (s.setChannel_work n _).toChannelsWork.toRule
  | _ => exact .refl s

theorem writeParameter_rule (number : Half) (v : Word) (o : Origin) (s : State) :
    RuleWork s (writeParameter number v o s).state := by
  unfold writeParameter
  split
  · exact Param.write_rule _ v o s
  · exact .refl s

/-- A change of the banks, the role or the report of MAP. -/
theorem State.setBanks_rule (s : State) (m : MapUnit)
    (h : m = { s.map with mapA := m.mapA, mapB := m.mapB, convA := m.convA, convB := m.convB, role := m.role,
                          report := m.report }) : RuleWork s { s with map := m } :=
  ⟨rfl, rfl, h, rfl, fun _ => rfl, rfl, rfl, rfl⟩

theorem writeMapEntry_rule (index : Byte) (r : BitVec 64) (o : Origin) (s : State) :
    RuleWork s (writeMapEntry index r o s).state := by
  unfold writeMapEntry
  split
  · exact .refl s
  · split
    · exact .refl s
    · split
      · exact .refl s
      · rename_i e _
        refine s.setBanks_rule _ ?_
        have h := (s.map.setStagedEntry_spec index.toNat e).2.2
        rw [h]

theorem writeConversionRecord_rule (index : Byte) (r : BitVec 128) (o : Origin) (s : State) :
    RuleWork s (writeConversionRecord index r o s).state := by
  unfold writeConversionRecord
  split
  · exact .refl s
  · split
    · exact .refl s
    · split
      · exact .refl s
      · rename_i c _
        refine s.setBanks_rule _ ?_
        have h := (s.map.setStagedRecord_spec index.toNat c).2.2
        rw [h]

theorem readMapEntry_rule (index selector : Byte) (o : Origin) (s : State) : (readMapEntry index selector o s).state = s := by
  unfold readMapEntry
  split <;> rfl

theorem readConversionRecord_rule (index selector : Byte) (o : Origin) (s : State) :
    (readConversionRecord index selector o s).state = s := by
  unfold readConversionRecord
  split <;> rfl

theorem commit_rule (o : Origin) (s : State) : RuleWork s (commit o s).state :=
  (commit_work o s).1.toRule fun k => by rw [(commit_work o s).2]

theorem discardStaged_rule (o : Origin) (s : State) : RuleWork s (discardStaged o s).state := by
  unfold discardStaged
  split
  · exact .refl s
  · refine s.setBanks_rule _ ?_
    obtain ⟨mapA, mapB, convA, convB, role, plan, snapshot, holding, lastCycle, report⟩ := s.map
    cases role <;> rfl

theorem startTimebases_rule (set : Byte) (o : Origin) (s : State) : RuleWork s (startTimebases set o s).state := by
  unfold startTimebases
  split
  · exact .refl s
  · split
    · exact .refl s
    · exact .foldl _ (fun u t => u.startTimebase_rule t) _ _

theorem stopTimebases_rule (set : Byte) (o : Origin) (s : State) : RuleWork s (stopTimebases set o s).state := by
  unfold stopTimebases
  split
  · exact .refl s
  · exact .foldl _ (fun u t => u.setTimebase_rule t _) _ _

theorem pushSetpoint_rule (channel format conversion : Byte) (value : Word) (o : Origin) (s : State) :
    RuleWork s (pushSetpoint channel format conversion value o s).state := by
  unfold pushSetpoint
  split
  · exact .refl s
  · split
    · exact .refl s
    · split
      · exact .refl s
      · split
        · exact (s.deliver_work _ _ _).toChannelsWork.toRule
        · exact .refl s

theorem forceTrip_rule (o : Origin) (s : State) : RuleWork s (forceTrip o s).state :=
  ⟨rfl, rfl, rfl, rfl, fun _ => rfl, rfl, rfl, rfl⟩

/-- Clearing the latch restarts ages and nothing else. -/
theorem State.clearTrip_rule (s : State) : RuleWork s s.clearTrip := by
  unfold State.clearTrip
  refine (s.setTiu_rule _).trans (RuleWork.foldl _ (fun u n => ?_) _ _)
  split
  · exact u.setOutput_rule n _
  · exact .refl u

theorem clearTrip_rule (o : Origin) (s : State) : RuleWork s (clearTrip o s).state := by
  unfold clearTrip
  split
  · exact .refl s
  · exact s.clearTrip_rule

theorem withLoadChannel_rule (channel : Byte) (rule : Fin 2 → Rule) (o : Origin) (s : State)
    (h : ∀ k, RuleWork s (rule k o s).state) : RuleWork s (withLoadChannel channel rule o s).state := by
  unfold withLoadChannel
  split
  · exact h _
  · exact .refl s

theorem loadSetup_rule (channel : Byte) (r : BitVec 64) (o : Origin) (s : State) :
    RuleWork s (loadSetup channel r o s).state := by
  refine withLoadChannel_rule _ _ o s fun k => ?_
  dsimp only
  split
  · exact .refl s
  · split
    · exact .refl s
    · exact s.setLoad_rule k _ rfl

theorem loadStart_rule (channel : Byte) (o : Origin) (s : State) : RuleWork s (loadStart channel o s).state := by
  refine withLoadChannel_rule _ _ o s fun k => ?_
  dsimp only
  split
  · exact .refl s
  · split
    · exact s.setLoad_rule k _ rfl
    · split
      · exact .refl s
      · exact s.setLoad_rule k _ rfl

theorem State.cancelWaiting_rule (s : State) : RuleWork s s.cancelWaiting := by
  unfold State.cancelWaiting
  split
  · exact s.setLoad_rule 1 _ rfl
  · exact .refl s

theorem loadCancel_rule (channel : Byte) (o : Origin) (s : State) : RuleWork s (loadCancel channel o s).state := by
  refine withLoadChannel_rule _ _ o s fun k => ?_
  dsimp only
  split
  · simp only [doneWith]
    split
    · exact RuleWork.trans (s.setLoad_rule k { s.lch[k] with state := .cancelled } rfl) (State.cancelWaiting_rule _)
    · exact s.setLoad_rule k _ rfl
  · exact .refl s

theorem loadStatus_rule (channel : Byte) (o : Origin) (s : State) : RuleWork s (loadStatus channel o s).state :=
  withLoadChannel_rule _ _ o s fun _ => .refl s

theorem restart_rule (o : Origin) (s : State) : RuleWork s (restart o s).state := by
  unfold restart
  simp only [doneWith]
  split
  · exact ⟨rfl, rfl, rfl, rfl, fun _ => rfl, rfl, rfl, rfl⟩
  · exact .refl s

/-! ### Every command -/

theorem channelAction_rule (set action : Byte) (o : Origin) (s : State) : RuleWork s (channelAction set action o s).state := by
  unfold channelAction
  rcases action.toNat with _ | _ | _ | _ | _ | _
  · exact .refl s
  · exact (enableChannels_work set o s).toRule
  · exact (disableChannels_work set o s).toRule
  · exact (clearFaultChannels_work set o s).toRule
  · exact (clearFlagsChannels_work set o s).toRule
  · exact .refl s

theorem timebaseAction_rule (set action : Byte) (o : Origin) (s : State) : RuleWork s (timebaseAction set action o s).state := by
  unfold timebaseAction
  rcases action.toNat with _ | _ | _ | _
  · exact .refl s
  · exact startTimebases_rule set o s
  · exact stopTimebases_rule set o s
  · exact .refl s

theorem tripAction_rule (action : Byte) (o : Origin) (s : State) : RuleWork s (tripAction action o s).state := by
  unfold tripAction
  rcases action.toNat with _ | _ | _ | _
  · exact .refl s
  · exact forceTrip_rule o s
  · exact clearTrip_rule o s
  · exact .refl s

/-- Whatever a held or broadcast payload spells. -/
theorem commandRule_rule (code : Nat) (args : List Byte) (o : Origin) (s : State) :
    RuleWork s (commandRule code args o s).state := by
  unfold commandRule
  split
  · exact .refl s
  · exact .refl s
  · exact .refl s
  · exact ⟨rfl, rfl, rfl, rfl, fun _ => rfl, rfl, rfl, rfl⟩
  · exact acknowledgeAttention_rule _ o s
  · rw [readParameter_rule]; exact .refl s
  · exact writeParameter_rule _ _ o s
  · exact writeMapEntry_rule _ _ o s
  · rw [readMapEntry_rule]; exact .refl s
  · exact writeConversionRecord_rule _ _ o s
  · rw [readConversionRecord_rule]; exact .refl s
  · exact commit_rule o s
  · exact discardStaged_rule o s
  · exact channelAction_rule _ _ o s
  · exact timebaseAction_rule _ _ o s
  · exact pushSetpoint_rule _ _ _ _ o s
  · exact tripAction_rule _ o s
  · exact loadSetup_rule _ _ o s
  · exact loadStart_rule _ o s
  · exact loadCancel_rule _ o s
  · exact loadStatus_rule _ o s
  · exact ⟨rfl, rfl, rfl, rfl, fun _ => rfl, rfl, rfl, rfl⟩
  · exact restart_rule o s
  · exact .refl s

theorem executeHeld_rule (payload : List Byte) (s : State) : RuleWork s (executeHeld payload s).state := by
  unfold executeHeld
  dsimp only
  split
  · exact .refl s
  · split
    · exact commandRule_rule _ _ _ s
    · exact .refl s

theorem executeBroadcast_rule (payload : List Byte) (s : State) : RuleWork s (executeBroadcast payload s) := by
  unfold executeBroadcast
  dsimp only
  split
  · split
    · exact commandRule_rule _ _ _ s
    · exact .refl s
  · exact .refl s

end Sys2Proof.Machine
end

