-- ==== Sys2Proof/Tests/Slice0.lean ====
section
/-! SUPPORT. The model's own tests: an ill-formed term for each check of WellFormed, examples of the manual, and a witness for
the hypotheses of each statement. Each test takes at most one command on a small state. -/

namespace Sys2Proof.Machine.Tests

set_option Elab.async false

/-! ### Helpers -/

/-- The state a command answers. -/
def after (i : Instr) (s : State) : State :=
  match exec i s with
  | .next t => t
  | .fault _ | .refused _ => s

/-- The state a step answers. -/
def stepped (s : State) : State :=
  match step s with
  | .next t => t
  | .fault _ | .refused _ => s

/-- The result a held command records. -/
def resultOf (i : Instr) (s : State) : Option Result :=
  match (after i s).mge.answer with
  | some (.mgmt r _ _) => some r
  | _ => none

/-- The reply bytes a held command records. -/
def replyOf (i : Instr) (s : State) : List Byte :=
  match (after i s).mge.answer with
  | some (.mgmt _ _ reply) => reply
  | _ => []

/-- A channel in RUNNING with this duty. -/
def drivenChannel (duty : Nat) : Channel := { Channel.reset with state := .running, duty := duty, deadTime := 3 }

/-- A part with address 5, TB0 in RUNNING at a counter of a period of 100, and channel 0 in RUNNING with duty 40. -/
def live (counter : Nat) : State :=
  { State.reset with
    lrx.address := 5
    tb := State.reset.tb.set 0 ⟨.running, 0, 100, 60, counter⟩
    chn := State.reset.chn.set 0 (drivenChannel 40) }

/-- A channel in FAULT with this sticky flag. -/
def faulted (n : Fin 6) (sticky mask : ExcSet) : State :=
  State.reset.setChannel n { Channel.reset with state := .fault, cause := some .range, sticky := sticky, mask := mask }

/-- The configuration of 03 §3.10 after its correction: record 0, entries 0 to 3 of group 1. -/
def exampleRecord : ConvRecord := ⟨true, .hold, 0, 1, 0, 0, 4800⟩

def exampleMap (channel : Byte) : Vector MapEntry 64 :=
  (((MapUnit.reset.mapA.set 0 ⟨true, .consume, .little, 2, .unsigned, 1, 2, 1, 0, 0xFF⟩).set 1
    ⟨true, .produce, .little, 2, .unsigned, 1, 0, 1, 0, 0⟩).set 2 ⟨true, .produce, .little, 1, .unsigned, 1, 5, 3, 0, 0⟩).set 3
    ⟨true, .consume, .little, 2, .signed, 1, 8, channel, 0, 0⟩

def exampleConv : Vector ConvRecord 16 := MapUnit.reset.convA.set 0 exampleRecord

/-- The same staged in bank B, and active in bank A. -/
def staged (channel : Byte) : State :=
  { State.reset with map.mapB := exampleMap channel, map.convB := exampleConv }

def configured (s : State) : State := { s with map.mapA := exampleMap 2, map.convA := exampleConv }

/-- A receiver about to take a stop bit, with this parser and forwarding state. -/
def taking (p : Parser) (f : FwdState) : State :=
  { State.reset with lrx.rx := .receiving true, lrx.parser := p, fwd.state := f }

def plain (b : Byte) : LineChar := { data := b, marker := false, time := 0 }

/-- A FIFO with this many characters. -/
def backlog (k : Nat) (s : State) : State :=
  { s with fwd.fifo := List.replicate k (plain 0), fwd.highWater := k }

def low : State := { State.reset with pins.rstn := false }

/-! ### WellFormed: one ill-formed term for each check, and the greatest value that passes it -/

theorem test_reserved_bits_are_ill_formed :
    ([.acknowledgeAttention .held 0x2000, .writeAttentionMask .held 0x2000, .writeTripFilter .held 4,
      .writeInputFilter .held 0 4, .writePeriod .held 0 0x10000, .writePrescaler .held 0 4, .writeDeadTime .held 0 256,
      .writePolarity .held 0 4, .writeSafeLevels .held 0 16, .writeGate .held 0 32, .writeTripEnable .held 0 2,
      .writeRingMode .held 0 256, .writeRingDepth .held 0 256, .writeExceptionMask .held 0 16,
      .writeMapEntry .held 0 0x08, .writeConversionRecord .held 0 0x80, .loadSetup .held 0 0x08,
      .loadSetup .held 0 0x0001000000000000] : List Instr).all (fun i => !i.wellFormed) = true := by decide +kernel

theorem test_full_values_are_well_formed :
    ([.acknowledgeAttention .held 0x1FFF, .writeAttentionMask .held 0x1FFF, .writeTripFilter .held 3,
      .writeInputFilter .held 0 3, .writePeriod .held 0 0xFFFF, .writePrescaler .held 0 3, .writeDeadTime .held 0 255,
      .writePolarity .held 0 3, .writeSafeLevels .held 0 15, .writeGate .held 0 31, .writeTripEnable .held 0 1,
      .writeRingMode .held 0 255, .writeRingDepth .held 0 255, .writeExceptionMask .held 0 15,
      .writeMapEntry .held 0 0x07, .writeConversionRecord .held 0 0x07,
      .loadSetup .held 0 0x0000FFFFFFFFFF07] : List Instr).all (·.wellFormed) = true := by decide +kernel

theorem test_unpermitted_broadcasts_are_ill_formed :
    ([.identify .broadcast, .readStatus .broadcast, .readCounters .broadcast, .clearCounters .broadcast,
      .acknowledgeAttention .broadcast 0, .readParameter .broadcast 1, .writeParameter .broadcast 3 0,
      .writePeriod .broadcast 0 2, .writeMapEntry .broadcast 0 0, .readMapEntry .broadcast 0 0,
      .writeConversionRecord .broadcast 0 0, .readConversionRecord .broadcast 0 0, .discardStaged .broadcast,
      .pushSetpoint .broadcast 0 0 0xFF 0, .loadSetup .broadcast 0 0, .loadStart .broadcast 0, .loadCancel .broadcast 0,
      .loadStatus .broadcast 0] : List Instr).all (fun i => !i.wellFormed) = true := by decide +kernel

theorem test_permitted_broadcasts_are_well_formed :
    ([.commit .broadcast, .enable .broadcast 1, .disable .broadcast 1, .clearFault .broadcast 1, .clearFlags .broadcast 1,
      .start .broadcast 1, .stop .broadcast 1, .force .broadcast, .clear .broadcast, .releaseAddress .broadcast,
      .restart .broadcast] : List Instr).all (·.wellFormed) = true := by decide +kernel

/-! ### The queue, RSTn, invariants (O1 to O15) -/

theorem test_step_takes_the_front :
    stepped { live 9 with pending := [.force .held, .clear .held] } =
      { after (.force .held) (live 9) with pending := [.clear .held] } := by decide +kernel

theorem test_an_empty_queue_idles : (live 9).pending = [] ∧ stepped (live 9) = live 9 := by decide +kernel

theorem test_witness_rstn_low : low.pins.rstn = false ∧ after (.commit .held) low = low ∧ low.pinHi 3 = .highZ ∧
    low.txoLevel 7 = true := by decide +kernel

theorem test_witness_unpermitted_broadcast :
    (Instr.identify .broadcast).via = some .broadcast ∧ (Instr.identify .broadcast).broadcastPermitted = false := by decide +kernel

/-- A state with every invariant, a channel in RUNNING, and a command in front (O6 to O9, O12). -/
def sound : State := { configured (live 9) with pending := [.timebaseTick 0] }

theorem test_witness_inv : Inv sound := by
  constructor
  · intro n
    have h : n = 0 ∨ n = 1 ∨ n = 2 ∨ n = 3 ∨ n = 4 ∨ n = 5 := by omega
    rcases h with rfl | rfl | rfl | rfl | rfl | rfl <;> constructor <;> decide +kernel
  · intro t
    have h : t = 0 ∨ t = 1 := by omega
    rcases h with rfl | rfl <;> constructor <;> decide +kernel
  · constructor <;> decide +kernel
  · constructor <;> decide +kernel

/-- The field-level check of an entry by evaluation. -/
theorem fieldValid_of_check (e : MapEntry) (h : (match decodeMapEntry (BitVec.ofNat 64 (leNat e.bytes)) with
    | .ok x => decide (x = e)
    | .error _ => false) = true) : e.fieldValid := by
  unfold MapEntry.fieldValid
  split at h
  · rename_i x hx; rw [hx, of_decide_eq_true h]
  · exact absurd h (by decide)

theorem recordValid_of_check (c : ConvRecord) (h : (match decodeConvRecord (BitVec.ofNat 128 (leNat c.bytes)) with
    | .ok x => decide (x = c)
    | .error _ => false) = true) : c.fieldValid := by
  unfold ConvRecord.fieldValid
  split at h
  · rename_i x hx; rw [hx, of_decide_eq_true h]
  · exact absurd h (by decide)

theorem test_witness_banks : BanksSound sound where
  mapA i := fieldValid_of_check _ (by revert i; decide +kernel)
  mapB i := fieldValid_of_check _ (by revert i; decide +kernel)
  convA i := recordValid_of_check _ (by revert i; decide +kernel)
  convB i := recordValid_of_check _ (by revert i; decide +kernel)
  active := by show validateFrom _ _ _ _ = none; decide +kernel

theorem test_witness_loads : LoadsSound sound := by
  have none0 : ∀ d, sound.lch[0].descriptor ≠ some d := fun d h => nomatch (show Option.none = some d from h)
  have none1 : ∀ d, sound.lch[1].descriptor ≠ some d := fun d h => nomatch (show Option.none = some d from h)
  constructor
  · intro k
    have h : k = 0 ∨ k = 1 := by omega
    rcases h with rfl | rfl
    · exact ⟨by decide +kernel, by decide +kernel, fun d h => absurd h (none0 d), fun d h => absurd h (none0 d),
        fun d h => absurd h (none0 d)⟩
    · exact ⟨by decide +kernel, by decide +kernel, fun d h => absurd h (none1 d), fun d h => absurd h (none1 d),
        fun d h => absurd h (none1 d)⟩
  · decide +kernel
  · decide +kernel
  · exact fun d e h => absurd h (none0 d)

theorem test_witness_telegram : sound.released ∧ TelegramSound sound :=
  ⟨rfl, rfl, rfl, rfl, rfl, ⟨rfl, rfl, rfl, by decide +kernel⟩, fun c h => absurd h (List.not_mem_nil)⟩

theorem test_witness_sound_state_steps : (step sound matches .next _) = true := by decide +kernel

theorem test_witness_address_and_rate :
    (after (.assign 0 7) State.reset).lrx.address = 7 ∧ (after (.releaseAddress .held) (live 0)).lrx.address = 0 ∧
    (after (.rstnRelease 3) State.reset).lrx.rate = 3 := by decide +kernel

/-- A rising edge at the boundary and a fall at the duty restart the ages; FORCE leaves them. -/
theorem test_witness_edges :
    (live 39).gated 0 = true ∧ (after (.timebaseTick 0) (live 39)).gated 0 = false ∧
    (after (.timebaseTick 0) ((live 39).setOutput 0 { Output.reset with ageHi := 40 })).out[0].ageHi = 0 ∧
    (after (.force .held) ((live 5).setOutput 0 { Output.reset with ageHi := 5 })).out[0].ageHi = 5 := by decide +kernel

def restarting (k : Nat) : State := { live 9 with mge.restart := some (.after k) }

theorem test_witness_restart :
    (restarting 0).released ∧ (restarting 0).mge.restart = some (.after 0) ∧ (live 9).mge.restart ≠ some (.after 0) ∧
    (after .restartTakesEffect (restarting 0)).lrx.address = 5 ∧ (after .restartTakesEffect (live 9)) = live 9 :=
  ⟨rfl, rfl, by decide +kernel, by decide +kernel, by decide +kernel⟩

/-- RESTART behind 6 characters (10 §10.11), and a second RESTART. -/
theorem test_restart_point :
    (after (.restart .held) (backlog 6 State.reset)).mge.restart = some (.after 6) ∧
    (after (.restart .broadcast) (restarting 2)).mge.restart = some (.after 2) ∧ (live 9).mge.restart = none := by decide +kernel

/-- The three cases of R133 with both polarities and unequal safe levels: tripped, not in RUNNING, at a STOPPED timebase, driven with
the gated level at 1 and at 0, and driven with the gate closed. -/
theorem test_witness_pin_levels :
    let o : Output := { Output.reset with ageHi := 9, polHi := .activeLow, safeHi := .active, safeLo := .float }
    let driven := (live 10).setOutput 0 o
    let tripped := { driven with tiu.latch := true }
    let armed := driven.setChannel 0 { drivenChannel 0 with state := .armed }
    let stopped := driven.setTimebase 0 { driven.tb[0] with state := .stopped }
    let below := (live 60).setOutput 0 { o with ageHi := 0, ageLo := 9 }
    let closed := (live 10).setOutput 0 { o with ageHi := 0, ageLo := 3, gate := .input 2 true }
    [tripped, armed, stopped, driven, below, closed].map (fun s => (s.pinHi 0, s.pinLo 0)) =
      [(.low, .highZ), (.low, .highZ), (.low, .highZ), (.low, .low), (.high, .high), (.high, .high)] ∧
    driven.logical 0 .hi = true ∧ driven.tiu.latch = false ∧ driven.chn[0].state = .running ∧ driven.tb[0].state = .running ∧
    tripped.tiu.enable[0] = true ∧ armed.chn[0].state ≠ .running := by decide +kernel

/-! ### Timebases and channels (O16 to O21) -/

theorem test_witness_ticks :
    State.reset.tb[0].state = .stopped ∧ (live 98).tb[0].counter + 1 < (live 98).tb[0].period ∧
    (after (.timebaseTick 0) (live 98)).tb[0].counter = 99 ∧ after (.timebaseTick 0) State.reset = State.reset := by
  decide +kernel

theorem test_witness_duty_match :
    (live 39).tb[timebaseOf 0].counter + 1 = (live 39).chn[0].duty ∧ after (.dutyMatch 0) (live 39) = after (.timebaseTick 0) (live 39)
    ∧ after (.dutyMatch 0) (live 38) = live 38 := by decide +kernel

/-- 07 §7.8: the output becomes active at the tick that brings its age to the dead time in effect. -/
theorem test_witness_dead_time_expiry :
    let s := (live 10).setOutput 0 { Output.reset with ageHi := 2 }
    let u := (live 60).setOutput 0 { Output.reset with ageLo := 2 }
    s.gateOpen 0 = true ∧ s.tb[0].counter + 1 < s.chn[0].duty ∧ s.out[0].ageHi + 1 = s.chn[0].deadTime ∧
    (after (.deadTimeExpiry 0 .hi) s).pinHi 0 = .high ∧ s.pinHi 0 = .low ∧
    u.gated 0 = false ∧ u.out[0].ageLo + 1 = u.chn[0].deadTime ∧ (after (.deadTimeExpiry 0 .lo) u).pinLo 0 = .high := by
  decide +kernel

/-- With a dead time of 0 the fall at the duty makes LO0 active; at a STOPPED timebase and where nothing becomes active at the last
tick of a period, neither row has an effect; a lower dead time taken at the boundary makes LO0 active. -/
theorem test_witness_no_expiry_elsewhere :
    let zero := (live 39).setChannel 0 { drivenChannel 40 with deadTime := 0 }
    let last := ((live 99).setChannel 0 { drivenChannel 0 with deadTime := 6 }).setOutput 0 { Output.reset with stagedDeadTime := 5, ageLo := 4 }
    zero.gated 0 = true ∧ zero.logical 0 .lo = false ∧ (after (.deadTimeExpiry 0 .lo) zero).logical 0 .lo = true ∧
    after (.dutyMatch 0) State.reset = State.reset ∧ after (.dutyMatch 0) (live 99) = live 99 ∧
    after (.deadTimeExpiry 0 .hi) State.reset = State.reset ∧ after (.deadTimeExpiry 0 .hi) (live 99) = live 99 ∧
    after (.deadTimeExpiry 0 .hi) (live 10) = live 10 ∧ after (.deadTimeExpiry 0 .lo) (live 60) = live 60 ∧
    after (.deadTimeExpiry 0 .lo) last = after (.timebaseTick 0) last ∧ after (.deadTimeExpiry 0 .lo) last ≠ last := by
  decide +kernel

/-- The shorter staged period 60 is taken at the boundary, the duty repeated under a masked STALE (06 §6.8). -/
theorem test_boundary_repeats_the_duty :
    (live 99).tb[0].period ≤ (live 99).tb[0].counter + 1 ∧
    (after (.periodBoundary 0) (live 99)).tb[0] = ⟨.running, 0, 60, 60, 0⟩ ∧
    (after (.periodBoundary 0) (live 99)).chn[0] =
      { drivenChannel 40 with deadTime := 48, sticky := ⟨false, false, false, true⟩ } ∧
    after (.periodBoundary 0) (live 98) = live 98 := by decide +kernel

theorem test_boundary_clamps_the_duty :
    let s := (live 99).setChannel 0 (drivenChannel 100)
    (after (.timebaseTick 0) s).chn[0].duty = 60 ∧ (after (.timebaseTick 0) s).chn[0].saturated = true := by decide +kernel

/-- 06 §6.7: a pending exception fires before the pop. -/
theorem test_boundary_faults_on_a_pending_exception :
    let c := { drivenChannel 18 with sticky := ⟨false, true, false, true⟩, mask := ⟨true, false, true, false⟩ }
    let s := ((live 99).setChannel 2 c).setRing 2 { Ring.reset with slots := [⟨.valid, some 20, .within, .management⟩] }
    (after (.periodBoundary 0) s).chn[2].cause = some .range ∧ (after (.periodBoundary 0) s).rings[2].slots = [] ∧
    (after (.periodBoundary 0) s).chn[2].sticky = c.sticky ∧ (after (.periodBoundary 0) s).mge.flags = 4 := by decide +kernel

/-- The order of the pending exceptions (R111), and a candidate duty below 0 applied as 0 (R121). -/
theorem test_first_pending_and_negative_candidates :
    ([⟨true, true, true, true⟩, ⟨false, true, true, true⟩, ⟨false, false, true, true⟩, ⟨false, false, false, true⟩, .clear].map
      fun e : ExcSet => ({ Channel.reset with sticky := e, mask := .clear }).firstPending) =
      [some .invalid, some .range, some .overrun, some .stale, none] ∧
    ({ Channel.reset with sticky := .all, mask := ⟨true, true, false, false⟩ } : Channel).firstPending = some .overrun ∧
    (let s := (live 99).setRing 0 { Ring.reset with slots := [⟨.valid, some (-7), .below, .management⟩] }
     (after (.timebaseTick 0) s).chn[0].duty = 0 ∧ (after (.timebaseTick 0) s).chn[0].saturated = true) := by decide +kernel

/-- 06 §6.9: START makes a boundary at once, with the counter from 0. -/
theorem test_start_makes_a_boundary :
    let slots := [1400, 1500].map fun d : Int => (⟨.valid, some d, .within, .telegram 1⟩ : Slot)
    let s := (State.reset.setChannel 3 (drivenChannel 1200)).setRing 3 { Ring.reset with slots := slots }
    let s := s.setTimebase 1 { Timebase.reset with counter := 1700 }
    (after (.start .held 2) s).tb[1] = { Timebase.reset with state := .running } ∧
    (after (.start .held 2) s).chn[3].duty = 1400 ∧ (after (.start .held 2) s).rings[3].slots.length = 1 ∧
    s.tb[1].state = .stopped ∧ (2#8).getLsbD 0 = false := by decide +kernel

theorem test_stop_freezes_the_counter : (after (.stop .held 1) (live 17)).tb[0] = ⟨.stopped, 0, 100, 60, 17⟩ := by decide +kernel

theorem test_timebase_sets :
    resultOf (.start .held 0) State.reset = some .badArgument ∧ resultOf (.start .held 4) State.reset = some .badArgument ∧
    resultOf (.start .held 3) State.reset = some .done ∧ resultOf (.start .held 3) (live 0) = some .wrongState ∧
    replyOf (.start .held 3) (live 0) = [0] ∧ resultOf (.stop .held 4) State.reset = some .badArgument ∧
    resultOf (.stop .held 3) State.reset = some .done := by decide +kernel

theorem test_channel_sets :
    resultOf (.enable .held 0) State.reset = some .badArgument ∧ resultOf (.enable .held 0x40) State.reset = some .badArgument ∧
    resultOf (.enable .held 0x3F) State.reset = some .done ∧ resultOf (.enable .held 3) (live 0) = some .wrongState ∧
    replyOf (.enable .held 3) (live 0) = [0] ∧ resultOf (.clearFault .held 1) State.reset = some .wrongState := by decide +kernel

/-- 06 §6.7: CLEAR_FAULT is held back by a pending exception until CLEAR_FLAGS. -/
theorem test_clear_fault_and_clear_flags :
    let s := faulted 2 ⟨false, true, false, false⟩ ⟨true, false, true, true⟩
    let masked := faulted 2 ⟨false, true, false, false⟩ ExcSet.all
    resultOf (.clearFault .held 4) s = some .pendingException ∧ replyOf (.clearFault .held 4) s = [2] ∧
    (after (.clearFlags .held 4) s).chn[2] = { s.chn[2] with sticky := ExcSet.clear } ∧
    (after (.clearFault .held 4) masked).chn[2].state = .armed ∧ (after (.clearFault .held 4) masked).chn[2].cause = none ∧
    (after (.clearFault .held 4) masked).chn[2].sticky = masked.chn[2].sticky := by decide +kernel

theorem test_enable_with_a_pending_exception :
    let c := { Channel.reset with sticky := ⟨true, false, false, false⟩, mask := ExcSet.clear }
    resultOf (.enable .held 2) (State.reset.setChannel 1 c) = some .pendingException := by decide +kernel

theorem test_disable : (after (.disable .held 1) (live 5)).chn[0] = { drivenChannel 0 with state := .disabled } ∧
    (after (.disable .held 2) (live 5)).chn = (live 5).chn := by decide +kernel

/-! ### Trip and inputs (O22 to O24) -/

/-- 08 §8.7: with 4 samples the fourth disagreeing sample changes the level. -/
theorem test_filter_of_four :
    Filter.sample ⟨false, 1, 2⟩ true = ⟨false, 1, 3⟩ ∧ Filter.sample ⟨false, 1, 3⟩ true = ⟨true, 1, 0⟩ ∧
    Filter.sample ⟨false, 1, 2⟩ false = ⟨false, 1, 0⟩ ∧ filterLength 3 = 64 := by decide +kernel

/-- 08 §8.8: the fourth sample of 0 at TRIPn sets the latch and TRIP. -/
theorem test_trip_from_the_pin :
    let s := { State.reset with tiu.trip := ⟨true, 1, 3⟩ }
    (after (.sampleInstant false 0) s).tiu.latch = true ∧ (after (.sampleInstant false 0) s).mge.flags = 0x40 ∧
    (after (.sampleInstant true 0) s).tiu.latch = false ∧ (after (.sampleInstant true 8) s).tiu.levels = 8 ∧
    (after (.filteredLevelChange .trip) s).tiu.latch = true ∧
    s.tiu.trip.run + 1 = filterLength s.tiu.trip.code ∧
    State.reset.tiu.inputs[3].run + 1 = filterLength State.reset.tiu.inputs[3].code ∧
    (after (.filteredLevelChange (.input 3)) s).tiu.levels = 8 := by decide +kernel

theorem test_level_change_needs_its_run :
    State.reset.tiu.trip.run + 1 < filterLength State.reset.tiu.trip.code ∧
    after (.filteredLevelChange .trip) State.reset = State.reset ∧
    (let s := { State.reset with tiu.inputs := State.reset.tiu.inputs.set 3 ⟨false, 1, 2⟩ }
     s.tiu.inputs[3].run + 1 < filterLength s.tiu.inputs[3].code ∧ after (.filteredLevelChange (.input 3)) s = s) := by
  decide +kernel

/-- 08 §8.8: FORCE, CLEAR refused while asserted, CLEAR after it. -/
theorem test_trip_control :
    let forced := { live 10 with tiu.latch := true }
    let asserted := { live 10 with tiu.latch := true, tiu.trip := ⟨false, 1, 0⟩ }
    replyOf (.force .held) (live 10) = [1] ∧ (after (.force .held) (live 10)).mge.flags = 0x40 ∧
    resultOf (.clear .held) asserted = some .tripActive ∧ replyOf (.clear .held) asserted = [3] ∧
    replyOf (.clear .held) forced = [0] ∧ (after (.clear .held) forced).tiu.latch = false ∧
    (live 10).tiu.enable[0] = true ∧ (after (.force .held) (live 10)).forced 0 = true := by decide +kernel

theorem test_trip_enable :
    let forced := { (live 10).setOutput 0 { Output.reset with ageHi := 9 } with tiu.latch := true }
    (after (.writeTripEnable .held 0 0) forced).out[0].ageHi = 0 ∧ (after (.writeTripEnable .held 0 1) forced).out[0].ageHi = 9 ∧
    resultOf (.writeTripEnable .held 0 2) forced = some .reservedField := by decide +kernel

/-- With a dead time of 0 the end of trip forcing makes the output of the gated level active in its event (R129, R133), before or after
an edge alike (R134); with a dead time of 3 it does not. -/
theorem test_end_of_forcing_at_dead_time_zero :
    let forced := fun counter dead : Nat =>
      { (live counter).setChannel 0 { drivenChannel 40 with deadTime := dead } with tiu.latch := true }
    let pins := fun s : State => (s.pinHi 0, s.pinLo 0)
    (forced 10 0).tiu.latch = true ∧ (forced 10 0).tiu.enable[0] = true ∧
    pins (after (.clear .held) (forced 10 0)) = (.high, .low) ∧ pins (after (.writeTripEnable .held 0 0) (forced 60 0)) = (.low, .high) ∧
    pins (after (.clear .held) (forced 10 3)) = (.low, .low) ∧ pins (after (.writeTripEnable .held 0 0) (forced 60 3)) = (.low, .low) ∧
    pins (after (.timebaseTick 0) (after (.clear .held) (forced 39 0))) = (.low, .high) ∧
    pins (after (.clear .held) (after (.timebaseTick 0) (forced 39 0))) = (.low, .high) := by decide +kernel

/-- A CLEAR and an assertion of the filtered trip input at the same moment, with a dead time of 0: no output is active in between, and
both are forced after (R144); read as two moments, the output is active after the CLEAR (R133, log 20). -/
theorem test_clear_and_an_assertion :
    let base := ((live 10).setChannel 0 { drivenChannel 40 with deadTime := 0 }).setOutput 0 { Output.reset with safeLo := .active }
    let cleared := after (.clear .broadcast) { base with tiu.latch := true, tiu.trip := ⟨true, 1, 3⟩ }
    let pins := fun s : State => (s.pinHi 0, s.pinLo 0)
    (cleared.pinBetween 0 .hi, cleared.pinBetween 0 .lo) = (.low, .low) ∧ pins cleared = (.high, .low) ∧
    pins (after (.filteredLevelChange .trip) cleared) = (.low, .high) ∧ pins (after (.sampleInstant false 0) cleared) = (.low, .high) ∧
    cleared.out[0].afterTrip = true ∧ (after (.timebaseTick 0) cleared).pinBetween 0 .hi = .high ∧
    filterLength cleared.tiu.trip.code ≤ cleared.tiu.trip.run + 1 := by decide +kernel

/-- The gate of channel 0 opens at the moment of its duty match, in both orders: one makes an edge and undoes it (R134, log 21). -/
theorem test_opposing_changes_at_one_moment :
    let s := { (live 39).setOutput 0 { Output.reset with gate := .input 2 true, ageLo := 9 } with
      tiu.inputs := Tiu.reset.inputs.set 2 ⟨false, 0, 0⟩ }
    let opens := Instr.filteredLevelChange (.input 2)
    let first := after (.timebaseTick 0) (after opens s)
    let second := after opens (after (.timebaseTick 0) s)
    first.gated 0 = second.gated 0 ∧ (first.out[0].ageLo, second.out[0].ageLo) = (0, 10) ∧
    (first.pinLo 0, second.pinLo 0) = (.low, .high) := by decide +kernel

/-! ### Parameter writes at their boundaries (O25 to O27) -/

theorem test_filter_and_timebase_writes :
    ([.writeTripFilter .held 2, .writeTripFilter .held 3, .writeTripFilter .held 4, .writeInputFilter .held 7 3,
      .writeInputFilter .held 7 4, .writePeriod .held 1 1, .writePeriod .held 1 2, .writePeriod .held 1 65535,
      .writePeriod .held 1 65536, .writePrescaler .held 0 3, .writePrescaler .held 1 3, .writePrescaler .held 1 4]
        : List Instr).map (resultOf · (live 0)) =
      [some .done, some .badArgument, some .reservedField, some .done, some .reservedField, some .badArgument, some .done,
       some .done, some .reservedField, some .wrongState, some .done, some .reservedField] := by decide +kernel

theorem test_output_writes :
    ([.writeDeadTime .held 0 255, .writeDeadTime .held 0 256, .writePolarity .held 0 3, .writePolarity .held 1 3,
      .writePolarity .held 1 4, .writeSafeLevels .held 0 3, .writeSafeLevels .held 0 5, .writeSafeLevels .held 0 6,
      .writeSafeLevels .held 0 12, .writeSafeLevels .held 0 15, .writeSafeLevels .held 0 16, .writeGate .held 0 0, .writeGate .held 0 7,
      .writeGate .held 0 8, .writeGate .held 0 16, .writeGate .held 0 31, .writeGate .held 0 32] : List Instr).map
        (resultOf · (live 0)) =
      [some .done, some .reservedField, some .wrongState, some .done, some .reservedField, some .badArgument,
       some .badArgument, some .done, some .badArgument, some .badArgument, some .reservedField, some .done, some .badArgument, some .done,
       some .badArgument, some .done, some .reservedField] := by decide +kernel

theorem test_output_settings :
    (after (.writePolarity .held 1 2) (live 0)).out[1].polLo = .activeLow ∧
    (after (.writeSafeLevels .held 1 6) (live 0)).out[1].safeHi = .float ∧
    (after (.writeSafeLevels .held 1 6) (live 0)).out[1].safeLo = .active ∧
    (after (.writeGate .held 0 0x1D) (live 0)).out[0].gate = .input 5 false ∧
    (after (.writeGate .held 0 8) ((live 9).setOutput 0 { Output.reset with ageHi := 9 })).out[0].ageHi = 0 := by decide +kernel

theorem test_ring_and_mask_writes :
    ([.writeRingMode .held 1 1, .writeRingMode .held 1 2, .writeRingMode .held 1 255, .writeRingMode .held 1 256,
      .writeRingMode .held 0 1, .writeRingDepth .held 1 0, .writeRingDepth .held 1 1, .writeRingDepth .held 1 8,
      .writeRingDepth .held 1 9, .writeRingDepth .held 1 256, .writeRingDepth .held 0 8, .writeExceptionMask .held 0 15,
      .writeExceptionMask .held 0 16] : List Instr).map (resultOf · (live 0)) =
      [some .done, some .badArgument, some .badArgument, some .reservedField, some .wrongState, some .badArgument, some .done,
       some .done, some .badArgument, some .reservedField, some .wrongState, some .done, some .reservedField] := by decide +kernel

/-! ### MGE (O28 to O35) -/

theorem test_identify_needs_room :
    replyOf (.identify .held) (live 0) = [0x6B, 0x0D, 0x06, 0x24, 0x03, 6, 64, 16] ∧
    (executeHeld [1, 0, 0, 0] (live 0)).result = .badLength ∧
    (executeHeld [1, 0, 0, 0, 0, 0, 0, 0, 0, 0, 0] (live 0)).result = .done := by decide +kernel

/-- 05 §5.9: the head of the ring of channel 4 in READ STATUS. -/
theorem test_read_status :
    let slots := [1400, 1500].map fun d : Int => (⟨.valid, some d, .within, .telegram 23⟩ : Slot)
    let s := (live 17).setRing 4 { Ring.reset with slots := slots }
    (replyOf (.readStatus .held) s).length = 52 ∧ ((replyOf (.readStatus .held) s).drop 6).take 5 = [1, 100, 0, 17, 0] ∧
    ((replyOf (.readStatus .held) s).drop 16).take 6 = [2, 40, 0, 0, 0, 0] ∧
    ((replyOf (.readStatus .held) s).drop 40).take 6 = [0, 0, 0, 2, 1, 23] := by decide +kernel

theorem test_counters :
    let s := backlog 7 { live 0 with lrx.counters := Vector.replicate 6 65535 }
    (s.countError .crc).lrx.counters[0] = 65535 ∧ ((live 0).countError .gap).lrx.counters[2] = 1 ∧
    ((live 0).countError .gap).mge.flags = 0x800 ∧ replyOf (.readCounters .held) s = List.replicate 12 0xFF ∧
    (after (.clearCounters .held) { s with fwd.highWater := 90 }).fwd.highWater = 7 := by decide +kernel

/-- 10 §10.10: flags 0804H and mask 17FFH. -/
theorem test_attention :
    let s := { live 0 with mge.flags := 0x0804, mge.mask := 0x17FF }
    s.summary = 1 ∧ replyOf (.acknowledgeAttention .held 4) s = [0, 8] ∧ (after (.acknowledgeAttention .held 4) s).summary = 0 ∧
    resultOf (.acknowledgeAttention .held 0x2000) s = some .reservedField ∧
    resultOf (.acknowledgeAttention .held 0x1FFF) s = some .done ∧
    replyOf (.readParameter .held 4) s = [4, 8, 0, 0] ∧
    resultOf (.writeAttentionMask .held 0x1FFF) s = some .done ∧ resultOf (.writeAttentionMask .held 0x2000) s = some .reservedField := by
  decide +kernel

theorem test_parameter_numbers :
    ([0, 1, 6, 7, 8, 0x10, 0x11, 0x1F, 0x20, 0x22, 0x23, 0x27, 0x28, 0x2A, 0x2B, 0xFF, 0x100, 0x10B, 0x10C, 0x10F, 0x150, 0x15B,
      0x15C, 0x160] : List Half).map (fun p => decide (resultOf (.readParameter .held p) (live 0) = some .done)) =
      [false, true, true, false, true, true, false, false, true, true, false, false, true, true, false, false, true, true, false,
       false, true, true, false, false] := by decide +kernel

theorem test_write_parameter :
    ([(1, 0), (2, 0), (3, 5), (4, 0), (6, 0), (0x10, 0), (0x22, 0), (0x20, 2), (0x108, 0), (0x10B, 0), (0x155, 1), (7, 0)]
      : List (Half × Word)).map (fun p => resultOf (.writeParameter .held p.1 p.2) (live 0)) =
      [some .readOnly, some .readOnly, some .done, some .readOnly, some .readOnly, some .readOnly, some .readOnly, some .done,
       some .readOnly, some .readOnly, some .done, some .badArgument] := by decide +kernel

/-- Payloads by their rows: a row of its length, one byte short, an unknown code, an unknown action. -/
theorem test_witness_held_payloads :
    let period : List Byte := [0x11, 0, 0, 0x20, 0, 9, 0, 0, 0]
    heldRow period = some (.writeParameter .held 0x20 9) ∧ heldLength 0x11 = some 9 ∧ period.length = 9 ∧
    (executeHeld period (live 0)).state.tb[0].staged = 9 ∧ (executeHeld (period.take 8) (live 0)).result = .badLength ∧
    heldLength 0x99 = none ∧ (executeHeld [0x99, 0, 0, 0] (live 0)).result = .unknownCommand ∧
    heldRow [0x30, 0, 0, 1, 5] = none ∧ heldLength 0x30 = some 5 ∧ (executeHeld [0x30, 0, 0, 1, 5] (live 0)).result = .badArgument ∧
    heldRow [0x50, 0, 0, 0] = some (.releaseAddress .held) ∧ heldLength 0x50 = some 3 := by decide +kernel

/-- 01 §1.10: an offer taken, a marked offer, offers out of range, and an offer to a part with an address. -/
theorem test_assign :
    (after (.assign 0 1) State.reset).lrx.address = 1 ∧ (after (.assign 0 126) State.reset).lrx.address = 126 ∧
    (after (.assign 1 1) State.reset).lrx.address = 0 ∧ (after (.assign 0 0) State.reset).lrx.address = 0 ∧
    (after (.assign 0 127) State.reset).lrx.address = 0 ∧ after (.assign 0 3) (live 0) = live 0 ∧
    (after (.releaseAddress .broadcast) (live 0)).lrx.address = 0 := by decide +kernel

/-! ### Tables (O36 to O41) -/

/-- 12 §12.7: map entry 3 of 03 §3.10 as bytes, byte 0 first. -/
def entry3 : BitVec 64 := 0x0000020801010201

/-- Conversion record 0 of 04 §4.6: gain 3, shift 2, offset 100, limits 0 and 4800, HOLD. -/
def record0 : BitVec 128 := 0x000012C0000000000000006400030201

theorem test_map_entry_bytes :
    (decodeMapEntry entry3).toOption.map (·.bytes) = some [0x01, 0x02, 0x01, 0x01, 0x08, 0x02, 0x00, 0x00] ∧
    resultOf (.writeMapEntry .held 3 entry3) State.reset = some .done ∧
    resultOf (.writeMapEntry .held 3 (entry3 ||| 8)) State.reset = some .reservedField ∧
    resultOf (.writeMapEntry .held 3 0x0000020801010301) State.reset = some .badArgument ∧
    resultOf (.writeMapEntry .held 64 entry3) State.reset = some .badArgument ∧
    replyOf (.readMapEntry .held 3 1) (after (.writeMapEntry .held 3 entry3) State.reset) =
      [0x01, 0x02, 0x01, 0x01, 0x08, 0x02, 0x00, 0x00] := by decide +kernel

theorem test_conversion_record_bytes :
    (decodeConvRecord record0).toOption = some ⟨true, .hold, 2, 3, 100, 0, 4800⟩ ∧
    resultOf (.writeConversionRecord .held 15 record0) State.reset = some .done ∧
    resultOf (.writeConversionRecord .held 16 record0) State.reset = some .badArgument ∧
    resultOf (.writeConversionRecord .held 0 (record0 ||| 8)) State.reset = some .reservedField ∧
    resultOf (.writeConversionRecord .held 0 (record0 ||| 4)) State.reset = some .badArgument ∧
    replyOf (.readConversionRecord .held 0 0) (configured State.reset) = exampleRecord.bytes ∧
    resultOf (.readConversionRecord .held 16 0) State.reset = some .badArgument ∧
    resultOf (.readMapEntry .held 63 2) State.reset = some .badArgument ∧
    resultOf (.readMapEntry .held 64 0) State.reset = some .badArgument := by decide +kernel

/-- Each field of a record at its place, and the unused and undefined records (R191). -/
theorem test_record_fields :
    (decodeMapEntry 0x0706050403020407).toOption = some ⟨true, .produce, .big, 4, .float, 3, 4, 5, 6, 7⟩ ∧
    (decodeMapEntry 0x0706050403020406).toOption.map (·.used) = some false ∧
    (decodeConvRecord 0x7F0000027F0000011111111122221F03).toOption =
      some ⟨true, .lowLimit, 0x1F, 0x2222, 0x11111111, 0x7F000001, 0x7F000002⟩ ∧
    (decodeConvRecord 0x02).toOption.map (·.defined) = some false := by decide +kernel

/-- A staged map of these entries over record 0, and the entry and check that a validation of it reports. -/
def validated (entries : List MapEntry) : Option (Byte × Byte) :=
  { MapUnit.reset with
    mapB := entries.zipIdx.foldl (fun v (e : MapEntry × Nat) => v.setIfInBounds e.2 e.1) MapUnit.reset.mapB
    convB := exampleConv }.validate

/-- Each of the seven checks fails under its number, and the lowest failing one is reported (R53). -/
theorem test_validation_numbers :
    let consume : MapEntry := ⟨true, .consume, .little, 2, .unsigned, 1, 2, 1, 0, 0⟩
    let produce : MapEntry := ⟨true, .produce, .little, 2, .unsigned, 1, 4, 1, 0, 0xFF⟩
    [[consume, produce], [{ consume with offset := 239 }], [{ produce with format := .float }],
      [{ consume with target := 6 }], [{ consume with conversion := 1 }], [{ produce with width := 1 }],
      [produce, consume, consume], [produce, { produce with source := 5, offset := 5 }],
      [{ consume with offset := 239, target := 6, conversion := 1 }]].map validated =
      [none, some (0, 1), some (0, 2), some (0, 3), some (0, 4), some (0, 5), some (2, 6), some (1, 7), some (0, 1)] := by
  decide +kernel

/-- 03 §3.10: rejected at entry 3, check 6; then successful. -/
theorem test_commit :
    resultOf (.commit .held) (staged 1) = some .commitRejected ∧ replyOf (.commit .held) (staged 1) = [3, 6] ∧
    (after (.commit .held) (staged 1)).map.report = .rejected .command 3 6 ∧
    (after (.commit .broadcast) (staged 1)).mge.flags = 0x1000 ∧
    resultOf (.commit .held) (staged 2) = some .done ∧ replyOf (.commit .held) (staged 2) = [1] ∧
    (after (.commit .held) (staged 2)).map.activeMap = exampleMap 2 ∧
    (after (.commit .held) (staged 2)).map.stagedConv = exampleConv := by decide +kernel

/-- 03 §3.11: the plans of three telegrams, and the snapshot of the first. -/
theorem test_plans :
    let s := ((configured State.reset).setChannel 0 (drivenChannel 1200)).setRing 0
      { Ring.reset with slots := List.replicate 3 ⟨.valid, some 1, .within, .management⟩ }
    (s.map.buildPlan 1 6).map (·.index) = [1, 0, 2] ∧ (s.map.buildPlan 1 10).map (·.index) = [1, 0, 2, 3] ∧
    s.map.buildPlan 2 20 = [] ∧ (s.takeSnapshot (s.map.buildPlan 1 6)).map (·.value) = [1200, 3] ∧
    ((s.takeSnapshot (s.map.buildPlan 1 6)).map (·.byteAt 1)).head? = some 0x04 ∧
    (s.openPlan s 1 9 10).map.holding.map (·.channel) = [1, 2] := by decide +kernel

/-- The value of one produced source in a snapshot. -/
def produced (s : State) (source index : Byte) : List Word :=
  (s.takeSnapshot [⟨0, ⟨true, .produce, .little, 2, .unsigned, 1, 0, source, index, 0xFF⟩⟩]).map (·.value)

theorem test_sources :
    let c := { drivenChannel 40 with sticky := ⟨false, true, false, true⟩, code := .above }
    let s := { (live 17).setChannel 5 c with
      tiu := { Tiu.reset with latch := true, trip := ⟨false, 1, 0⟩, inputs := Tiu.reset.inputs.set 7 ⟨true, 0, 0⟩ }
      mge := { Mge.reset with flags := 0x1801, mask := 0x0FFF }
      lch := State.reset.lch.set 1 { LoadChannel.reset with state := .active, next := 9 }
      lrx.counters := State.reset.lrx.counters.set 5 300
      map.lastCycle := 55 }
    [produced s 0 0, produced s 1 5, produced s 2 5, produced s 3 5, produced s 4 0, produced s 5 0, produced s 6 0,
      produced s 7 1, produced s 8 5, produced s 9 0] =
      [[0], [40], [2 + 8 + 32 + 128], [0], [0x80], [3], [0x801], [2 + 9 * 256], [300], [55]] := by decide +kernel

/-- The descriptor of 09 §9.10: MAP, first 8, count 6, group 5, offset 0, k = 2, auto-commit. -/
def descriptor0 : BitVec 64 := 0x0000020005060804

def load0 (st : LoadState) (next : Nat) (capture : Option (List Byte)) : LoadChannel :=
  ⟨some ⟨.map, 8, 6, 5, 0, 2, false, true⟩, st, next, .none, capture⟩

def loading (st : LoadState) (next : Nat) (capture : Option (List Byte)) : State :=
  State.reset.setLoad 0 (load0 st next capture)

theorem test_staging_while_held :
    (loading .active 8 none).targetHeld .map = true ∧ (loading .active 8 none).targetHeld .conversion = false ∧
    resultOf (.writeMapEntry .held 0 entry3) (loading .active 8 none) = some .busy ∧
    resultOf (.writeConversionRecord .held 0 record0) (State.reset.setLoad 1 { load0 .waiting 8 none with
      descriptor := some ⟨.conversion, 8, 6, 5, 0, 2, false, true⟩ }) = some .busy ∧
    resultOf (.discardStaged .held) (loading .active 8 none) = some .busy ∧
    resultOf (.discardStaged .held) (staged 1) = some .done ∧ (after (.discardStaged .held) (staged 1)).map.stagedMap = MapUnit.reset.mapA ∧
    resultOf (.commit .held) (loading .active 8 none) = some .busy ∧
    (after (.commit .broadcast) (loading .waiting 8 none)).map.report = .busy .broadcast := by decide +kernel

/-! ### Load channels (O42, O43) -/

theorem test_load_setup :
    (after (.loadSetup .held 0 descriptor0) State.reset).lch[0] = load0 .ready 8 none ∧
    resultOf (.loadSetup .held 2 descriptor0) State.reset = some .badArgument ∧
    resultOf (.loadSetup .held 0 (descriptor0 ||| 8)) State.reset = some .reservedField ∧
    resultOf (.loadSetup .held 0 0x0000020005390804) State.reset = some .badArgument ∧
    resultOf (.loadSetup .held 0 0x0000020005380804) State.reset = some .done ∧
    resultOf (.loadSetup .held 1 (descriptor0 ||| 2)) State.reset = some .badArgument ∧
    resultOf (.loadSetup .held 0 descriptor0) (loading .active 8 none) = some .wrongState ∧
    resultOf (.loadSetup .held 0 descriptor0) (loading .complete 14 none) = some .done := by decide +kernel

/-- LC1 waits behind a chained LC0, is refused over a common record, or starts. -/
theorem test_load_start :
    let chained := (State.reset.setLoad 1 (load0 .ready 8 none)).setLoad 0 { load0 .active 8 none with
      descriptor := some ⟨.map, 20, 2, 5, 0, 2, true, false⟩ }
    let common := (loading .active 8 none).setLoad 1 (load0 .ready 8 none)
    chained.chainingLc0 = true ∧ (after (.loadStart .held 1) chained).lch[1].state = .waiting ∧
    common.chainingLc0 = false ∧ common.loadOverlaps 1 = true ∧ resultOf (.loadStart .held 1) common = some .busy ∧
    (loading .ready 8 none).loadOverlaps 0 = false ∧ (after (.loadStart .held 0) (loading .ready 8 none)).lch[0].state = .active ∧
    resultOf (.loadStart .held 0) State.reset = some .wrongState ∧
    (after (.loadCancel .held 0) ((loading .active 8 none).setLoad 1 (load0 .waiting 8 none))).lch[1].state = .cancelled ∧
    resultOf (.loadCancel .held 0) (loading .complete 14 none) = some .wrongState ∧
    replyOf (.loadStatus .held 0) { loading .terminated 11 none with pins.tripn := true } = [6, 11, 0] ∧
    resultOf (.loadStatus .held 2) State.reset = some .badArgument := by decide +kernel

/-- 09 §9.10: repeat, expected, last, ahead, and a record with a reserved bit; the auto-commit meets an undefined record. -/
theorem test_chunks :
    let records := recordBytes 8 entry3 ++ List.replicate 8 0
    let bad := recordBytes 8 entry3 ++ recordBytes 8 (8 : BitVec 64)
    ((loading .active 10 (some (8 :: records))).judge 0).lch[0].next = 10 ∧
    ((loading .active 10 (some (10 :: records))).judge 0).lch[0].next = 12 ∧
    ((loading .active 12 (some (12 :: records))).judge 0).lch[0].state = .complete ∧
    ((loading .active 10 (some (12 :: records))).judge 0).lch[0].error = .sequence ∧
    ((loading .active 10 (some (10 :: bad))).judge 0).lch[0].error = .record ∧
    ((loading .active 10 (some (10 :: bad))).judge 0).lch[0].next = 11 ∧
    ((loading .active 10 (some (10 :: records))).judge 0).map.stagedMap[10].target = 2 ∧
    ((loading .active 12 (some (12 :: records))).loadsAtEnd).mge.flags = 0x1080 ∧
    ((loading .active 12 (some (12 :: records))).loadsAtEnd).map.report = .rejected .auto 12 4 := by decide +kernel

/-- No capture, and a load channel that has left ACTIVE; the load commands keep an open capture (log 19); a chunk of no records. -/
theorem test_unjudged_chunks :
    (loading .active 8 none).judge 0 = loading .active 8 none ∧
    (loading .cancelled 8 (some [8])).judge 0 = loading .cancelled 8 (some [8]) ∧
    (after (.loadCancel .held 0) (loading .active 8 (some [8]))).lch[0].capture = some [8] ∧
    (after (.loadSetup .held 0 descriptor0) (loading .cancelled 9 (some [7]))).lch[0] = load0 .ready 8 (some [7]) ∧
    (after (.loadStart .held 0) (loading .ready 8 (some [7]))).lch[0] = load0 .active 8 (some [7]) ∧
    writeRecords ⟨.map, 8, 6, 5, 0, 0, false, true⟩ 0 [] 8 MapUnit.reset = ⟨MapUnit.reset, 8, true⟩ := by decide +kernel

/-- The limits of R152: the largest chunk of each target at offset 0, and one past each limit. -/
theorem test_descriptor_limits :
    let accepted := fun (k : Fin 2) (bytes : List Byte) =>
      (decodeDescriptor k (BitVec.ofNat 64 (leNat bytes)) matches .ok _)
    [accepted 0 [0, 0, 64, 15, 0, 29, 0, 0], accepted 0 [1, 0, 16, 15, 0, 14, 0, 0], accepted 0 [3, 15, 1, 0, 223, 1, 0, 0],
      accepted 1 [5, 0, 1, 0, 0, 1, 0, 0], accepted 0 [0, 0, 65, 0, 0, 1, 0, 0], accepted 0 [1, 0, 17, 0, 0, 1, 0, 0],
      accepted 0 [0, 0, 0, 0, 0, 1, 0, 0], accepted 0 [0, 0, 1, 16, 0, 1, 0, 0], accepted 0 [0, 0, 1, 0, 240, 1, 0, 0],
      accepted 0 [0, 0, 1, 0, 0, 0, 0, 0], accepted 0 [0, 0, 1, 0, 0, 30, 0, 0], accepted 0 [1, 0, 1, 0, 224, 1, 0, 0],
      accepted 1 [3, 0, 1, 0, 0, 1, 0, 0]] =
      [true, true, true, true, false, false, false, false, false, false, false, false, false] := by decide +kernel

/-! ### Conversion and rings (O44 to O50) -/

/-- 04 §4.6 and the edges of R75. -/
theorem test_field_values :
    fieldValue .signed .big [0xFF, 0xF6] = some (-10) ∧ fieldValue .unsigned .little [0x40, 0x1F] = some 8000 ∧
    fieldValue .float .little [0x00, 0x00, 0xC0, 0x7F] = none ∧ fieldValue .float .little [0x00, 0x58, 0x9A, 0x44] = some 1234 ∧
    floatValue 0x3F7FFFFF = some 0 ∧ floatValue 0x3F800000 = some 1 ∧ floatValue 0xBFC00000 = some (-1) ∧
    floatValue 0x4EFFFFFF = some 2147483520 ∧ floatValue 0x4F000000 = none ∧ floatValue 0xCF000000 = some (-2147483648) ∧
    floatValue 0xCF000001 = none ∧ floatValue 0x7F800000 = none := by decide +kernel

def record46 : ConvRecord := ⟨true, .hold, 2, 3, 100, 0, 4800⟩

def record47 : ConvRecord := ⟨true, .lowLimit, 0, 1, 0, 200, 4000⟩

/-- The outcomes of 04 §4.6 and its variation (a). -/
theorem test_conversions :
    convert .all (some record46) (some (-10)) = ⟨none, .within, .slot .valid (some 92)⟩ ∧
    convert .all (some record46) (some 8000) = ⟨some .range, .above, .slot .clamped (some 4800)⟩ ∧
    convert .clear (some record46) (some 8000) = ⟨some .range, .above, .fault .range⟩ ∧
    convert .all (some record46) (some (-1000)) = ⟨some .range, .below, .slot .clamped (some 0)⟩ ∧
    convert .all (some record47) none = ⟨some .invalid, .unordered, .slot .subst (some 200)⟩ ∧
    convert .all (some record46) none = ⟨some .invalid, .unordered, .slot .subst none⟩ ∧
    convert .all none (some 4294967295) = ⟨none, .within, .slot .valid (some 2147483647)⟩ ∧
    convert .clear none none = ⟨some .invalid, .unordered, .fault .invalid⟩ ∧
    record46.compare 0 = .within ∧ record46.compare 4800 = .within ∧ record46.compare (-1) = .below ∧
    record46.compare 4801 = .above := by decide +kernel

/-- 04 §4.7: PUSH SETPOINT to an ARMED channel, and its refusals. -/
theorem test_push_setpoint :
    let s := State.reset.setChannel 3 { Channel.reset with state := .armed }
    replyOf (.pushSetpoint .held 3 4 0xFF 0x449A5800) s = [1, 1, 1, 1] ∧
    (after (.pushSetpoint .held 3 4 0xFF 0x449A5800) s).rings[3].slots = [⟨.valid, some 1234, .within, .management⟩] ∧
    replyOf (.pushSetpoint .held 3 4 0xFF 0x7F800000) s = [3, 3, 1, 1] ∧
    resultOf (.pushSetpoint .held 3 4 1 0) s = some .badArgument ∧ resultOf (.pushSetpoint .held 6 4 0xFF 0) s = some .badArgument ∧
    resultOf (.pushSetpoint .held 5 5 0xFF 0) s = some .badArgument ∧ resultOf (.pushSetpoint .held 5 0 0x10 0) s = some .badArgument ∧
    resultOf (.pushSetpoint .held 5 4 0xFF 0) s = some .wrongState ∧
    resultOf (.pushSetpoint .held 3 1 0 0xFFFF) (configured s) = some .done := by decide +kernel

def slotOf (duty : Int) : Slot := ⟨.valid, some duty, .within, .telegram 24⟩

/-- Channel 4 of 05 §5.9 with a ring of depth 3 that holds these slots. -/
def ringState (mode : RingMode) (mask : ExcSet) (duties : List Int) : State :=
  (State.reset.setChannel 4 { drivenChannel 1100 with mask := mask }).setRing 4 ⟨duties.map slotOf, mode, 3⟩

/-- 05 §5.9 and §5.10: the push of 1500. -/
theorem test_push :
    ((ringState .queued .all [1200, 1300, 1400]).push 4 (slotOf 1500)).rings[4].slots = [1300, 1400, 1500].map slotOf ∧
    ((ringState .queued .all [1200, 1300, 1400]).push 4 (slotOf 1500)).chn[4].sticky.overrun = true ∧
    ((ringState .queued .all [1200, 1300]).push 4 (slotOf 1400)).rings[4].slots = [1200, 1300, 1400].map slotOf ∧
    ((ringState .queued .clear [1200, 1300, 1400]).push 4 (slotOf 1500)).chn[4].cause = some .overrun ∧
    ((ringState .queued .clear [1200, 1300, 1400]).push 4 (slotOf 1500)).mge.flags = 0x10 ∧
    ((ringState .latest .clear [1400]).push 4 (slotOf 1500)).rings[4].slots = [slotOf 1500] ∧
    ((ringState .latest .clear [1400]).push 4 (slotOf 1500)).chn[4].sticky = .clear ∧
    (ringState .latest .all []).chn[4].state = .running ∧ (ringState .latest .all []).chn[4].firstPending = none := by
  decide +kernel

/-- An ARMED channel waits, takes its first slot, or faults on a pending exception. -/
theorem test_armed_channel :
    let armed := State.reset.setChannel 4 { Channel.reset with state := .armed, mask := .clear }
    let filled := armed.setRing 4 { Ring.reset with slots := [slotOf 7] }
    let pending := filled.setChannel 4 { armed.chn[4] with sticky := ⟨true, false, false, true⟩ }
    armed.chn[4].firstPending = none ∧ (armed.channelBoundary 100 4).chn[4].state = .armed ∧
    (filled.channelBoundary 100 4).chn[4].state = .running ∧ (filled.channelBoundary 100 4).chn[4].duty = 7 ∧
    pending.chn[4].firstPending = some .invalid ∧ (pending.channelBoundary 100 4).chn[4].cause = some .invalid ∧
    (pending.channelBoundary 100 4).rings[4].slots = [] := by decide +kernel

/-- The value of a channel outside ARMED and RUNNING is discarded; one in RUNNING takes it. -/
theorem test_feed :
    (faulted 1 .clear .all).feed 1 none (some 5) .management = faulted 1 .clear .all ∧
    ((live 5).feed 0 none (some 5) .management).rings[0].slots = [⟨.valid, some 5, .within, .management⟩] ∧
    ((live 5).feed 0 none none .management).chn[0].sticky = ⟨true, false, false, false⟩ ∧
    ((live 5).feed 0 (some record46) (some 8000) .management).chn[0].sticky = ⟨false, true, false, false⟩ := by decide +kernel

/-! ### The drive line (O51 to O60) -/

/-- The published check of the digits 1 to 9 with each byte's bits turned round: R5 takes bit 0 first, the published value bit 7 first. -/
theorem test_check_value :
    checkBytes 0xFFFF [0x8C, 0x4C, 0xCC, 0x2C, 0xAC, 0x6C, 0xEC, 0x1C, 0x9C] = 0x29B1 ∧ checkBit 0x8000 false = 0x1021 ∧
    checkBit 0x8000 true = 0 ∧ highByte 0x29B1 = 0x29 ∧ lowByte 0x29B1 = 0xB1 := by decide +kernel

theorem test_receiver :
    (after .lineIdle State.reset).lrx.rx = .ready ∧
    (after .startBitEdge { State.reset with lrx.rx := .ready }).lrx.rx = .receiving false ∧
    (let s := { State.reset with lrx.rx := .receiving false, lrx.gap := some 4 }
     (after (.startBitSample true) s).lrx.rx = .ready ∧ (after (.startBitSample true) s).lrx.gap = some 4 ∧
     (after (.startBitSample false) s).lrx.gap = none ∧ (after (.startBitSample false) s).lrx.rx = .receiving true) ∧
    (after (.characterReceived 7 false false 0) (taking .idle .idle)).lrx.rx = .waitIdle ∧
    after (.characterReceived 7 false true 0) State.reset = State.reset := by decide +kernel

/-- IDLE and SKIP: a header character, one with a framing error, a stray, a stray that meets a full FIFO. -/
theorem test_characters_between_telegrams :
    (after (.characterReceived 0x12 true true 9) (taking .idle .idle)).lrx.parser = .header 0x12 none ∧
    (after (.characterReceived 0x12 true false 9) (taking .idle .idle)).lrx.counters[1] = 1 ∧
    (after (.characterReceived 0x12 false true 9) (taking .idle .idle)).fwd.fifo = [⟨0x12, false, 9, false⟩] ∧
    (after (.characterReceived 0x12 false true 9) (taking .skip .idle)).fwd.fifo = [] ∧
    (after (.characterReceived 0x12 false true 9) (backlog 127 (taking .idle .idle))).fwd.fifo.length = 128 ∧
    (after (.characterReceived 0x12 false true 9) (backlog 128 (taking .idle .idle))).lrx.counters[5] = 1 ∧
    (backlog 128 (taking .idle .idle)).fwd.highWater = 128 := by decide +kernel

def dataTelegram (len : Nat) : Telegram := ⟨0x11, 9, len, .data, []⟩

/-- A DATA telegram in PASSING with its plan, at this payload position. -/
def passing (pos : Nat) : State :=
  let s := configured (taking (.payload (dataTelegram 6) pos) .passing)
  (s.openPlan s 1 9 6)

theorem test_witness_sound_telegram_in_progress : TelegramSound (passing 0) := by
  refine ⟨by decide +kernel, ?_, fun c h => absurd h (List.not_mem_nil)⟩
  exact ⟨by decide +kernel, fun c h => absurd h (List.not_mem_nil), fun h => absurd h (by decide +kernel),
    fun _ => ⟨Or.inl rfl, rfl⟩, fun _ => ⟨rfl, rfl, by decide +kernel⟩, fun h => absurd rfl h⟩

/-- 02 §2.8: the produced byte at position 5 enters in place of the inbound one; position 2 collects for entry 0. -/
theorem test_payload_character :
    (after (.characterReceived 0x55 false true 9) (passing 5)).fwd.fifo = [⟨0, false, 9, false⟩] ∧
    (after (.characterReceived 0x55 false true 9) (passing 5)).fwd.changed = true ∧
    (after (.characterReceived 0x55 false true 9) (passing 2)).fwd.fifo = [⟨0x55, false, 9, false⟩] ∧
    (after (.characterReceived 0x55 false true 9) (passing 2)).map.holding.map (·.raw) = [[0x55]] ∧
    (after (.characterReceived 0x55 false true 9) (passing 5)).lrx.parser = .check (dataTelegram 6) none ∧
    (after (.characterReceived 0x55 false true 9) (backlog 127 (passing 2))).fwd.state = .passing ∧
    (after (.characterReceived 0x55 false true 9) (backlog 128 (passing 2))).fwd.state = .cut ∧
    (after (.characterReceived 0x55 false true 9) { passing 2 with fwd.state := .cut }).fwd.fifo = [] := by decide +kernel

theorem test_payload_character_held :
    let t : Telegram := ⟨0x20, 5, 4, .held, []⟩
    (after (.characterReceived 0x55 false true 9) (taking (.payload t 3) .holding)).fwd.hold = [⟨0x55, false, 9, false⟩] ∧
    (after (.characterReceived 0x55 false true 9) (taking (.payload { t with treatment := .broadcast } 3) .passing)).lrx.parser =
      .check { t with treatment := .broadcast, heard := [0x55] } none := by decide +kernel

theorem test_header :
    treatmentOf 5 0x12 0 240 = .data ∧ treatmentOf 5 0x12 0 241 = .foreign ∧ treatmentOf 5 0x12 0 0 = .foreign ∧
    treatmentOf 5 0x20 5 64 = .held ∧ treatmentOf 5 0x20 5 3 = .foreign ∧ treatmentOf 0 0x20 0 4 = .passed ∧
    treatmentOf 5 0x20 0x7F 4 = .broadcast ∧ treatmentOf 5 0x20 6 4 = .passed ∧ treatmentOf 0 0x30 0 2 = .held ∧
    treatmentOf 5 0x30 0 2 = .passed ∧ treatmentOf 0 0x30 0 3 = .foreign ∧ treatmentOf 5 0x40 5 0 = .foreign := by decide +kernel

/-- H2 with room, without room, for a held telegram, and with a length error. -/
theorem test_header_completion :
    let header := fun (h0 h1 : Byte) (s : State) =>
      configured { s with lrx.rx := .receiving true, lrx.parser := .header h0 (some h1), fwd.state := .staging,
                          fwd.stage := [plain h0, plain h1] }
    (after (.characterReceived 6 false true 9) (header 0x11 9 (live 0))).fwd.fifo.length = 3 ∧
    (after (.characterReceived 6 false true 9) (header 0x11 9 (live 0))).map.holding.map (·.channel) = [1] ∧
    (after (.characterReceived 6 false true 9) (header 0x11 9 (backlog 125 (live 0)))).fwd.state = .passing ∧
    (after (.characterReceived 6 false true 9) (header 0x11 9 (backlog 126 (live 0)))).fwd.state = .cut ∧
    (after (.characterReceived 6 false true 9) (header 0x11 9 (backlog 126 (live 0)))).fwd.fifo.length = 128 ∧
    (after (.characterReceived 6 false true 9) (header 0x11 9 (backlog 126 (live 0)))).map.plan.isSome = true ∧
    (after (.characterReceived 6 false true 9) (header 0x11 9 (backlog 126 (live 0)))).map.holding.map (·.channel) = [1] ∧
    (after (.characterReceived 6 false true 9) (header 0x20 5 (live 0))).fwd.hold.length = 3 ∧
    (after (.characterReceived 3 false true 9) (header 0x20 5 (live 0))).lrx.counters[4] = 1 ∧
    (after (.characterReceived 6 false true 9) (header 0x20 0x7F (live 0))).fwd.fifo.length = 3 ∧
    (after (.characterReceived 9 false true 9) { header 0x11 0 (live 0) with lrx.parser := .header 0x11 none }).lrx.parser =
      .header 0x11 (some 9) := by decide +kernel

/-- 01 §1.9: a truncation in PASSING, a framing error in HOLDING, a fragment in STAGING, and the gap of 24 bit times. -/
theorem test_aborts :
    let staging := { taking (.header 0x12 none) .staging with fwd.stage := [plain 0x12], lrx.gap := some 100 }
    (after (.characterReceived 0x10 true true 9) (passing 2)).lrx.counters[3] = 1 ∧
    (after (.characterReceived 0x10 true true 9) (passing 2)).map.holding = [] ∧
    (after (.characterReceived 0x10 true true 9) (passing 2)).lrx.parser = .header 0x10 none ∧
    (after (.characterReceived 0x10 false false 9) { taking (.payload (dataTelegram 6) 0) .holding with
      fwd.hold := [plain 1] }).fwd.hold = [] ∧
    (after (.gapTimeout (100 + 24 * 32)) staging).fwd.fifo = [plain 0x12] ∧
    (after (.gapTimeout (100 + 24 * 32)) staging).lrx.counters[2] = 1 ∧ after (.gapTimeout (99 + 24 * 32)) staging = staging ∧
    after (.gapTimeout 5) State.reset = State.reset ∧
    ((backlog 128 staging).abortTelegram .gap).fwd.fifo.length = 128 ∧ ((backlog 128 staging).abortTelegram .gap).lrx.counters[5] = 1 ∧
    (State.abortTelegram { passing 5 with fwd.fifo := [plain 1, { plain 2 with wait := true }] } .gap).fwd.fifo = [plain 1] := by
  decide +kernel

/-- A telegram at its last character, its check good for 29H B1H. -/
def ending (t : Telegram) (f : FwdState) : State :=
  { taking (.check t (some 0x29)) f with lrx.acc := 0x29B1, lrx.gap := some 0 }

/-- The check characters of a telegram in PASSING: as received, regenerated, and poisoned with CRC counted. -/
theorem test_end_in_passing :
    let t : Telegram := ⟨0x40, 0, 1, .foreign, []⟩
    let s := { ending t .passing with fwd.fifo := [{ plain 0x29 with wait := true }], fwd.highWater := 1 }
    let changed := { s with fwd.changed := true, fwd.acc := 0x1234 }
    let data := fun u : State => u.fwd.fifo.map (·.data)
    data (after (.characterReceived 0xB1 false true 9) s) = [0x29, 0xB1] ∧
    data (after (.characterReceived 0xB1 false true 9) changed) = [0x12, 0x34] ∧
    data (after (.characterReceived 0xB0 false true 9) changed) = [0xED, 0xCB] ∧
    (after (.characterReceived 0xB0 false true 9) s).lrx.counters[0] = 1 ∧
    ((after (.characterReceived 0xB1 false true 9) s).fwd.fifo.map (·.wait)) = [false, false] ∧
    ((after (.characterReceived 0x29 false true 9) { taking (.check t none) .passing with lrx.acc := 0x29B1 }).fwd.fifo.map (·.wait)) =
      [true] := by decide +kernel

/-- A full FIFO at check character 1 and at check character 2, and the end in CUT of a foreign telegram. -/
theorem test_end_without_room :
    let t : Telegram := ⟨0x40, 0, 1, .foreign, []⟩
    let first := backlog 128 { taking (.check t none) .passing with lrx.acc := 0x29B1 }
    let second := { ending t .passing with
      fwd.fifo := List.replicate 127 (plain 0) ++ [{ plain 0x29 with wait := true }], fwd.changed := true, fwd.acc := 0x1234 }
    (after (.characterReceived 0x29 false true 9) first).fwd.state = .cut ∧
    (after (.characterReceived 0x29 false true 9) first).lrx.counters[5] = 1 ∧
    (after (.characterReceived 0xB1 false true 9) second).fwd.fifo = List.replicate 127 (plain 0) ++ [plain 0x12] ∧
    (after (.characterReceived 0xB1 false true 9) second).lrx.counters[5] = 1 ∧
    (after (.characterReceived 0xB1 false true 9) second).fwd.state = .idle ∧
    (after (.characterReceived 0xB1 false true 9) (ending t .cut)).fwd.fifo = [] ∧
    (after (.characterReceived 0xB0 false true 9) (ending t .cut)).lrx.counters[0] = 1 := by decide +kernel

/-- Nine characters of a held telegram but the last, with this payload; the address is 5. -/
def heldTelegram (h0 : Byte) (payload : List Byte) : State :=
  { ending ⟨h0, 5, payload.length, .held, []⟩ .holding with
    lrx.address := if h0 = 0x30 then 0 else 5
    fwd.hold := ([h0, 5, BitVec.ofNat 8 payload.length] ++ payload ++ [0x29]).map plain }

/-- 02 §2.9: CLEAR COUNTERS executed and appended; the same with a bad check, without room, and a RESTART behind a backlog. -/
theorem test_end_held :
    let s := heldTelegram 0x20 [4, 0, 0, 0]
    let done := after (.characterReceived 0xB1 false true 9) { s with lrx.counters := Vector.replicate 6 3 }
    let v := checkBytes 0xFFFF [0x20, 5, 4, 4, 0, 0, 0]
    done.lrx.counters = Vector.replicate 6 0 ∧ done.fwd.highWater = 9 ∧
    done.fwd.fifo.map (·.data) = [0x20, 5, 4, 4, 0, 0, 0, highByte v, lowByte v] ∧
    (after (.characterReceived 0xB0 false true 9) s).fwd.fifo.length = 9 ∧
    (after (.characterReceived 0xB0 false true 9) s).mge.answer = none ∧
    (after (.characterReceived 0xB1 false true 9) (backlog 119 s)).fwd.fifo.length = 128 ∧
    (after (.characterReceived 0xB1 false true 9) (backlog 120 s)).lrx.counters[5] = 1 ∧
    (after (.characterReceived 0xB1 false true 9) (backlog 6 (heldTelegram 0x20 [0x51, 0, 0, 0]))).mge.restart =
      some (.after 15) := by decide +kernel

/-- 01 §1.10: the offer 1 taken, its mark rewritten, and a marked offer appended unchanged. -/
theorem test_end_held_assign :
    let taken := after (.characterReceived 0xB1 false true 9) (heldTelegram 0x30 [0, 1])
    let left := after (.characterReceived 0xB1 false true 9) (heldTelegram 0x30 [1, 1])
    taken.lrx.address = 1 ∧ (taken.fwd.fifo.map (·.data)).take 5 = [0x30, 5, 2, 1, 1] ∧
    left.lrx.address = 0 ∧ (left.fwd.fifo.map (·.data)) = [0x30, 5, 2, 1, 1, 0x29, 0xB1] := by decide +kernel

/-- What is written into a telegram, and its payload. -/
theorem test_overwrite_and_regenerate :
    let v := checkBytes 0xFFFF [7, 8]
    (regenerate ([7, 8, 1, 2].map plain)).map (·.data) = [7, 8, highByte v, lowByte v] ∧
    overwrite 1 [5, 6] ([1, 2, 3, 4].map plain) = [1, 5, 6, 4].map plain ∧ payloadOf ([1, 2, 3, 4, 5, 6].map plain) = [4] := by
  decide +kernel

/-- 04 §4.6: a good end converts and pushes, a bad end does not. -/
theorem test_end_data :
    let w : PendingWrite := ⟨0, 0, .signed, .big, 2, 0, 0xFF, 17, [0x00, 0x5C]⟩
    let s := { (ending (dataTelegram 6) .passing).setChannel 0 (drivenChannel 40) with
      map.plan := some [], map.snapshot := some [], map.holding := [w] }
    let good := after (.characterReceived 0xB1 false true 9) s
    let bad := after (.characterReceived 0xB0 false true 9) s
    good.rings[0].slots = [⟨.valid, some 92, .within, .telegram 17⟩] ∧ good.map.lastCycle = 9 ∧ good.map.plan = none ∧
    bad.rings[0].slots = [] ∧ bad.map.lastCycle = 0 ∧ bad.map.holding = [] ∧
    (s.map.holding.map (·.channel)).Nodup := by decide +kernel

/-- 09 §9.4 to §9.6 at the good end of a DATA telegram: LC0 completes with auto-commit; LC0 completes a chain with auto-commit, so LC1
starts and the commit is refused; LC0 terminates and a WAITING LC1 is cancelled. -/
theorem test_end_data_with_captures :
    let empty := List.replicate 16 (0 : Byte)
    let at12 := fun (index : Byte) (chain : Bool) => (ending (dataTelegram 6) .passing).setLoad 0 { load0 .active 12 (some (index :: empty)) with
      descriptor := some ⟨.map, 8, 6, 5, 0, 2, chain, true⟩ }
    let waiting := fun s : State => s.setLoad 1 (load0 .waiting 8 none)
    let run := after (.characterReceived 0xB1 false true 9)
    (run (at12 12 false)).map.report = .done .auto ∧ (run (at12 12 false)).map.role = .b ∧ (run (at12 12 false)).mge.flags = 0x80 ∧
    (run (waiting (at12 12 true))).lch[1].state = .active ∧ (run (waiting (at12 12 true))).map.report = .busy .auto ∧
    (run (waiting (at12 12 true))).mge.flags = 0x1080 ∧
    (run (waiting (at12 13 true))).lch[1].state = .cancelled ∧ (run (waiting (at12 13 true))).mge.flags = 0x200 ∧
    (run (waiting (at12 13 true))).lch[0].error = .sequence ∧ (run (at12 12 false)).lch[0].capture = none ∧
    (run (at12 11 false)).lch = (State.reset.setLoad 0 (load0 .active 12 none)).lch := by decide +kernel

/-- A broadcast executed at its good end, in CUT too; an unpermitted one and a bad end are not. -/
theorem test_end_broadcast :
    let t : Telegram := ⟨0x20, 0x7F, 5, .broadcast, [0x30, 0, 0, 1, 1]⟩
    (after (.characterReceived 0xB1 false true 9) (ending t .passing)).chn[0].state = .armed ∧
    (after (.characterReceived 0xB1 false true 9) (ending t .cut)).chn[0].state = .armed ∧
    (after (.characterReceived 0xB0 false true 9) (ending t .cut)).chn[0].state = .disabled ∧
    (after (.characterReceived 0xB1 false true 9) (ending t .passing)).mge.answer = none ∧
    (after (.characterReceived 0xB0 false true 9) (ending t .passing)).chn[0].state = .disabled ∧
    (after (.characterReceived 0xB0 false true 9) (ending t .passing)).lrx.counters[0] = 1 ∧
    (after (.characterReceived 0xB1 false true 9) (backlog 128 (ending t .passing))).chn[0].state = .armed ∧
    (after (.characterReceived 0xB1 false true 9) (backlog 128 (ending t .passing))).lrx.counters[5] = 1 ∧
    executeBroadcast [0x01, 0, 0, 0, 0, 0, 0, 0, 0, 0, 0] (live 0) = live 0 ∧
    executeBroadcast [0x30, 0, 0, 1] (live 0) = live 0 ∧ (executeBroadcast [0x50, 0, 0, 0] (live 0)).lrx.address = 0 := by
  decide +kernel

/-- The head leaves two character times after its sample; a waiting one does not; the end of a transmission tests the next head. -/
theorem test_transmission :
    let s := { State.reset with fwd.fifo := [plain 1, plain 2] }
    let sending := { s with fwd.txo := .sending (plain 0) 0 }
    (after (.transmitCharacter 704) s).fwd.txo = .sending (plain 1) 704 ∧ after (.transmitCharacter 703) s = s ∧
    (let u := { State.reset with fwd.fifo := [{ plain 1 with wait := true }] }; after (.transmitCharacter 704) u = u) ∧
    after (.characterSent 351) sending = sending ∧ (after (.characterSent 352) sending).fwd.txo = .idle ∧
    (after (.characterSent 704) sending).fwd.txo = .sending (plain 1) 704 ∧
    (after (.characterSent 704) { sending with mge.restart := some (.after 1) }).fwd.txo = .idle ∧
    (after (.characterSent 704) { sending with mge.restart := some (.after 1) }).mge.restart = some (.after 0) ∧
    sending.txoLevel 0 = false ∧ (after (.transmitCharacter 704) (restarting 0)) = restarting 0 := by decide +kernel

/-- TXO over the bit times of 16 core clocks of a character 0x96 with the marker: start, data from bit 0 on, marker, stop. -/
theorem test_character_bits :
    let s := { State.reset with lrx.rate := 1, fwd.txo := .sending { plain 0x96 with marker := true } 100 }
    bitClocks s.lrx.rate = 16 ∧ (List.range 11).map (fun bit => s.txoLevel (100 + bit * 16 + 15)) =
      [false, false, true, true, false, true, false, false, true, true, true] ∧ State.reset.txoLevel 7 = true := by
  decide +kernel

/-- The states the tests are about take commands (a premise of most statements). -/
theorem test_the_test_states_are_released : (live 9).released ∧ State.reset.released ∧ (taking .idle .idle).released ∧
    (staged 1).released ∧ (loading .active 8 none).released ∧ (faulted 1 .clear .all).released ∧ (passing 0).released ∧
    (ending ⟨0x40, 0, 1, .foreign, []⟩ .passing).released ∧ (heldTelegram 0x20 [4, 0, 0, 0]).released := by
  refine ⟨rfl, rfl, rfl, rfl, rfl, rfl, rfl, rfl, rfl⟩

end Sys2Proof.Machine.Tests
end

section
/-! PROOFS. The frame of an event, the level at TXO, and the part while RSTn is low (R41, R135, R187). -/

open Sys2Proof Sys2Proof.Machine

namespace Sys2Proof.Machine.Forwarding

/-! ### The frame of an event -/

/-- Every command but the two of RSTn is taken in the frame of an event (R187). -/
theorem exec_eq_event (c : Instr) (fall : c ≠ .rstnFall) (release : ∀ straps, c ≠ .rstnRelease straps) :
    ∃ work, ∀ s, exec c s = event work s := by
  cases c with
  | rstnFall => exact absurd rfl fall
  | rstnRelease straps => exact absurd rfl (release straps)
  | _ => exact ⟨_, fun _ => rfl⟩

/-- While RSTn is low no such command changes anything (R187). -/
theorem exec_of_low (c : Instr) (s : State) (low : s.pins.rstn = false) (fall : c ≠ .rstnFall)
    (release : ∀ straps, c ≠ .rstnRelease straps) : exec c s = .next s := by
  obtain ⟨work, taken⟩ := exec_eq_event c fall release
  rw [taken, event_low work s low]

/-- An event whose work changes nothing changes nothing. -/
theorem event_of_self (work : State → State) (s : State) (h : work s = s) : event work s = .next s := by
  unfold event
  split
  · rfl
  · rw [h, settleEdges_self]

/-! ### The level at TXO (R28, R41) -/

theorem txoLevel_low (s : State) (time : Nat) (low : s.pins.rstn = false) : s.txoLevel time = true := by
  simp [State.txoLevel, low]

theorem txoLevel_idle (s : State) (time : Nat) (idle : s.fwd.txo = .idle) : s.txoLevel time = true := by
  simp [State.txoLevel, idle]

theorem txoLevel_sending (s : State) (time since : Nat) (c : LineChar) (high : s.released)
    (sending : s.fwd.txo = .sending c since) :
    s.txoLevel time = (c.bits[(time - since) / bitClocks s.lrx.rate]?).getD true := by
  have rstn : s.pins.rstn = true := high
  simp [State.txoLevel, rstn, sending]

/-- The start bit, the data bits from the least significant on, the marker bit, the stop bit (01 §1.1). -/
theorem bits_get (c : LineChar) (bit : Nat) (h : bit < 11) :
    (c.bits[bit]?).getD true =
      if bit = 0 then false else if bit ≤ 8 then c.data.getLsbD (bit - 1) else if bit = 9 then c.marker else true := by
  match bit with
  | 0 | 1 | 2 | 3 | 4 | 5 | 6 | 7 | 8 | 9 | 10 => rfl
  | bit + 11 => omega

end Sys2Proof.Machine.Forwarding

open Sys2Proof.Machine.Forwarding

/-- Settles O3: RSTN_FALL by its definition, every other command by the frame of an event. -/
theorem rstnLowStopsThePart : Obligations.RstnLowStopsThePart := by
  refine ⟨fun _ => rfl, fun c s => exec_of_low c s, fun s low => ⟨fun n => ⟨?_, ?_⟩, ?_⟩⟩
  · exact s.pinWith_low n .hi _ low
  · exact s.pinWith_low n .lo _ low
  · exact fun time => txoLevel_low s time low
end

section
/-! PROOFS. The resets of the forward path, the restart point, and the transmission of the head character (R28, R40, R42). -/

open Sys2Proof Sys2Proof.Machine Sys2Proof.Machine.Forwarding

namespace Sys2Proof.Machine.Forwarding

/-- An event whose work leaves the timebases, the channels, the outputs and TIU is that work alone. -/
theorem event_of_work (work : State → State) (s u : State) (high : s.released) (h : work s = u)
    (blocks : u.tb = s.tb ∧ u.chn = s.chn ∧ u.out = s.out ∧ u.tiu = s.tiu) : event work s = .next u := by
  obtain ⟨tb, chn, out, tiu⟩ := blocks
  rw [event_high work s high, h, settleEdges_of_blocks s u tb chn out tiu]

/-! ### The restart point (R40, R184) -/

theorem fixRestartPoint_of_carrier (s : State) (h : s.mge.restart = some .carrier) :
    s.fixRestartPoint = { s with mge := { s.mge with
      restart := some (.after (s.fwd.fifo.length + if s.fwd.txo = .idle then 0 else 1)) } } := by
  unfold State.fixRestartPoint
  rw [if_pos h]
  cases hx : s.fwd.txo <;> simp [State.level]

theorem fixRestartPoint_of_ne (s : State) (h : s.mge.restart ≠ some .carrier) : s.fixRestartPoint = s := if_neg h

theorem restart_of_none (o : Origin) (s : State) (h : s.mge.restart = none) :
    restart o s = ⟨{ s with mge := { s.mge with restart := some .carrier } }, .done, []⟩ := by
  simp [restart, doneWith, h]

theorem restart_of_pending (o : Origin) (s : State) (h : s.mge.restart ≠ none) : restart o s = ⟨s, .done, []⟩ := by
  simp [restart, doneWith, h]

/-- The row of RESTART is its rule and the point fixed at once (log 8), when that leaves the blocks that make edges. -/
theorem exec_restart (via : Via) (s u : State) (high : s.released) (work : (carried via true restart s).fixRestartPoint = u)
    (blocks : u.tb = s.tb ∧ u.chn = s.chn ∧ u.out = s.out ∧ u.tiu = s.tiu) : exec (.restart via) s = .next u :=
  event_of_work (fun s => (carried via true restart s).fixRestartPoint) s u high work blocks

/-! ### TXO (R27, R28) -/

theorem eligible_iff (s : State) (c : LineChar) (time : Nat) :
    s.eligible c time = true ↔ c.wait = false ∧ c.time + 22 * bitClocks s.lrx.rate ≤ time := by
  have chars : 2 * charClocks s.lrx.rate = 22 * bitClocks s.lrx.rate := by unfold charClocks; omega
  simp [State.eligible, chars]

theorem beginSending_of_eligible (s : State) (time : Nat) (c : LineChar) (rest : List LineChar) (idle : s.fwd.txo = .idle)
    (fifo : s.fwd.fifo = c :: rest) (marks : c.wait = false) (old : c.time + 22 * bitClocks s.lrx.rate ≤ time)
    (before : s.mge.restart ≠ some (.after 0)) :
    s.beginSending time = { s with fwd := { s.fwd with fifo := rest, txo := .sending c time } } := by
  have eligible : s.eligible c time = true := (eligible_iff s c time).mpr ⟨marks, old⟩
  simp [State.beginSending, idle, fifo, eligible, before]

/-- Where one of the conditions fails, TXO begins nothing. -/
theorem beginSending_self (s : State) (time : Nat)
    (h : ∀ c rest, s.fwd.txo = .idle → s.fwd.fifo = c :: rest → s.mge.restart ≠ some (.after 0) →
      c.wait = true ∨ time < c.time + 22 * bitClocks s.lrx.rate) : s.beginSending time = s := by
  unfold State.beginSending
  split
  case h_1 c rest idle fifo =>
    rw [if_neg]
    rintro ⟨eligible, before⟩
    obtain ⟨marks, old⟩ := (eligible_iff s c time).mp eligible
    rcases h c rest idle fifo before with waits | young
    · simp [marks] at waits
    · omega
  case h_2 => rfl

theorem beginSending_blocks (s : State) (time : Nat) :
    (s.beginSending time).tb = s.tb ∧ (s.beginSending time).chn = s.chn ∧ (s.beginSending time).out = s.out ∧
    (s.beginSending time).tiu = s.tiu := by
  rcases s.beginSending_cases time with same | ⟨c, rest, -, -, -, -, begun⟩
  · simp [same]
  · simp [begun]

theorem exec_transmitCharacter (s : State) (time : Nat) (high : s.released) :
    exec (.transmitCharacter time) s = .next (s.beginSending time) :=
  event_of_work (fun s => s.beginSending time) s _ high rfl (beginSending_blocks s time)

/-- The state in which TXO has ended a transmission and not yet tested the next head: one transmission fewer before the restart
point (R28, R40). -/
def transmissionEnded (s : State) : State :=
  { s with fwd := { s.fwd with txo := .idle }, mge := { s.mge with restart := s.mge.restart.map (·.sent) } }

theorem exec_characterSent_early (s : State) (time since : Nat) (c : LineChar) (sending : s.fwd.txo = .sending c since)
    (early : time < since + 11 * bitClocks s.lrx.rate) : exec (.characterSent time) s = .next s := by
  show execCharacterSent time s = _
  unfold execCharacterSent
  refine event_of_self _ s ?_
  simp only [sending]
  exact if_neg (Nat.not_le.mpr early)

theorem exec_characterSent_idle (s : State) (time : Nat) (idle : s.fwd.txo = .idle) :
    exec (.characterSent time) s = .next s := by
  show execCharacterSent time s = _
  unfold execCharacterSent
  refine event_of_self _ s ?_
  simp only [idle]

/-- The end of a transmission is the test of the next head in the state where it has ended. -/
theorem exec_characterSent_late (s : State) (time since : Nat) (c : LineChar) (high : s.released)
    (sending : s.fwd.txo = .sending c since) (late : since + 11 * bitClocks s.lrx.rate ≤ time) :
    exec (.characterSent time) s = .next ((transmissionEnded s).beginSending time) := by
  show execCharacterSent time s = _
  unfold execCharacterSent
  refine event_of_work _ s _ high ?_ (beginSending_blocks (transmissionEnded s) time)
  simp only [sending]
  exact if_pos late

end Sys2Proof.Machine.Forwarding

/-- Settles O14: both resets put FWD at its reset values, and an idle TXO stands at 1. -/
theorem forwardPathAfterReset : Obligations.ForwardPathAfterReset := by
  intro c s t ran reset
  have fwd : t.fwd = .reset := by
    rcases reset with ⟨straps, rfl⟩ | ⟨rfl, high, reached⟩
    · injection ran with result
      rw [← result]
      rfl
    · have work : exec .restartTakesEffect s = .next (settleEdges s s.restarted) := by
        refine (event_high _ s high).trans ?_
        simp only [if_pos reached]
      rw [work] at ran
      injection ran with result
      rw [← result]
      rfl
  have level : ∀ time, t.txoLevel time = true := fun time => txoLevel_idle t time (by rw [fwd]; rfl)
  simp only [State.level, fwd]
  exact ⟨rfl, rfl, rfl, rfl, rfl, rfl, level, rfl, rfl, rfl⟩

/-- Settles O15: the mark of RESTART is a point at once, and a point that stands is not moved. -/
theorem restartFixesItsPoint : Obligations.RestartFixesItsPoint := by
  intro s high
  refine ⟨fun none_pending => ?_, fun k pending => ?_⟩
  · refine ⟨exec_restart .held s _ high ?_ ⟨rfl, rfl, rfl, rfl⟩,
      exec_restart .broadcast s _ high ?_ ⟨rfl, rfl, rfl, rfl⟩⟩
    · rw [carried_held, restart_of_none _ s none_pending, fixRestartPoint_of_carrier _ rfl]
      rfl
    · rw [carried_broadcast, restart_of_none _ s none_pending, fixRestartPoint_of_carrier _ rfl]
  · have fixed : s.mge.restart ≠ some .carrier := by simp [pending]
    have stands : ∀ o, restart o s = ⟨s, .done, []⟩ := fun o => restart_of_pending o s (by simp [pending])
    refine ⟨exec_restart .held s _ high ?_ ⟨rfl, rfl, rfl, rfl⟩,
      exec_restart .broadcast s _ high ?_ ⟨rfl, rfl, rfl, rfl⟩⟩
    · rw [carried_held, stands]
      exact fixRestartPoint_of_ne (s.answered .done) fixed
    · rw [carried_broadcast, stands]
      exact fixRestartPoint_of_ne s fixed

/-- Settles O60: each row is `beginSending` in the state its condition gives, and a bit time of TXO is one place of the
character's eleven bits. -/
theorem headCharacterIsSent : Obligations.HeadCharacterIsSent := by
  intro s time high
  refine ⟨?_, ?_, ?_, exec_characterSent_idle s time, fun idle moment => txoLevel_idle s moment idle, ?_, rfl⟩
  · intro idle before c rest fifo
    refine ⟨fun marks old => ?_, fun unfit => ?_⟩
    · rw [exec_transmitCharacter s time high, beginSending_of_eligible s time c rest idle fifo marks old before]
    · rw [exec_transmitCharacter s time high, beginSending_self]
      intro d tail _ head _
      obtain ⟨rfl, -⟩ := List.cons.inj (fifo.symm.trans head)
      exact unfit
  · intro stopped
    rw [exec_transmitCharacter s time high, beginSending_self]
    intro c rest idle fifo before
    rcases stopped with empty | busy | reached
    · simp [empty] at fifo
    · exact absurd idle busy
    · exact absurd reached before
  · intro c since sending
    refine ⟨exec_characterSent_early s time since c sending, ?_⟩
    intro late idle
    have ended : idle = transmissionEnded s := by
      simp only [idle, transmissionEnded]
      rcases s.mge.restart with _ | _ | k <;> rfl
    rw [exec_characterSent_late s time since c high sending late, ended]
    refine ⟨fun d rest fifo marks old before => ?_, fun stopped => ?_⟩
    · rw [beginSending_of_eligible (transmissionEnded s) time d rest rfl fifo marks old before]
      rfl
    · rw [beginSending_self]
      intro d rest _ fifo before
      rcases stopped with unfit | reached
      · exact unfit d rest fifo
      · exact absurd reached before
  · intro c since sending bit within small inside
    have place : (since + bit * bitClocks s.lrx.rate + within - since) / bitClocks s.lrx.rate = bit := by
      rw [show since + bit * bitClocks s.lrx.rate + within - since = within + bit * bitClocks s.lrx.rate by omega,
        Nat.add_mul_div_right _ _ (by omega), Nat.div_eq_of_lt inside, Nat.zero_add]
    rw [txoLevel_sending s _ since c high sending, place, bits_get c bit small]
end

section
/-! PROOFS. The end of a broadcast MGMT telegram, and what its payload executes (R33, R39, R171). -/

open Sys2Proof Sys2Proof.Machine Sys2Proof.Machine.Forwarding

namespace Sys2Proof.Machine.Broadcast

/-! ### A broadcast payload (R169, R171) -/

/-- An argument byte of the payload, behind its three leading bytes. -/
theorem byteAt_args (payload : List Byte) (a i : Nat) (h : i < a) :
    byteAt ((payload.drop 3).take a) i = byteAt payload (3 + i) := by
  simp [byteAt, h]

theorem executeBroadcast_permitted (payload : List Byte) (s : State) (a r : Nat)
    (shape : commandShape (byteAt payload 0).toNat = some (a, r, true)) (long : a ≤ payload.length - 3) :
    executeBroadcast payload s = (commandRule (byteAt payload 0).toNat ((payload.drop 3).take a) .broadcast s).state := by
  simp only [executeBroadcast, shape, if_pos long]

theorem executeBroadcast_short (payload : List Byte) (s : State) (a r : Nat)
    (shape : commandShape (byteAt payload 0).toNat = some (a, r, true)) (short : ¬a ≤ payload.length - 3) :
    executeBroadcast payload s = s := by
  simp only [executeBroadcast, shape, if_neg short]

theorem executeBroadcast_unpermitted (payload : List Byte) (s : State)
    (shape : ∀ a r, commandShape (byteAt payload 0).toNat ≠ some (a, r, true)) : executeBroadcast payload s = s := by
  unfold executeBroadcast
  dsimp only
  split
  · exact absurd ‹_› (shape _ _)
  · rfl

/-- The broadcast column of R169. -/
theorem commandShape_permitted (code a r : Nat) (h : commandShape code = some (a, r, true)) :
    code = 0x24 ∨ code = 0x30 ∨ code = 0x31 ∨ code = 0x33 ∨ code = 0x50 ∨ code = 0x51 := by
  unfold commandShape at h
  split at h <;> simp_all

section
variable (payload : List Byte) (s : State)

theorem executeBroadcast_commit (code : (byteAt payload 0).toNat = 0x24) :
    executeBroadcast payload s = (commit .broadcast s).state := by
  rw [executeBroadcast_permitted payload s 0 2 (by rw [code]; rfl) (Nat.zero_le _), code]
  rfl

theorem executeBroadcast_channels (code : (byteAt payload 0).toNat = 0x30) (long : 5 ≤ payload.length) :
    executeBroadcast payload s = (channelAction (byteAt payload 3) (byteAt payload 4) .broadcast s).state := by
  rw [executeBroadcast_permitted payload s 2 1 (by rw [code]; rfl) (by omega), code,
    ← byteAt_args payload 2 0 (by omega), ← byteAt_args payload 2 1 (by omega)]
  rfl

theorem executeBroadcast_timebases (code : (byteAt payload 0).toNat = 0x31) (long : 5 ≤ payload.length) :
    executeBroadcast payload s = (timebaseAction (byteAt payload 3) (byteAt payload 4) .broadcast s).state := by
  rw [executeBroadcast_permitted payload s 2 1 (by rw [code]; rfl) (by omega), code,
    ← byteAt_args payload 2 0 (by omega), ← byteAt_args payload 2 1 (by omega)]
  rfl

theorem executeBroadcast_trip (code : (byteAt payload 0).toNat = 0x33) (long : 4 ≤ payload.length) :
    executeBroadcast payload s = (tripAction (byteAt payload 3) .broadcast s).state := by
  rw [executeBroadcast_permitted payload s 1 1 (by rw [code]; rfl) (by omega), code,
    ← byteAt_args payload 1 0 (by omega)]
  rfl

theorem executeBroadcast_releaseAddress (code : (byteAt payload 0).toNat = 0x50) :
    executeBroadcast payload s = (releaseAddress .broadcast s).state := by
  rw [executeBroadcast_permitted payload s 0 0 (by rw [code]; rfl) (Nat.zero_le _), code]
  rfl

theorem executeBroadcast_restart (code : (byteAt payload 0).toNat = 0x51) :
    executeBroadcast payload s = (restart .broadcast s).state := by
  rw [executeBroadcast_permitted payload s 0 0 (by rw [code]; rfl) (Nat.zero_le _), code]
  rfl

end

/-! ### Action bytes (R192) -/

theorem channelAction_cases (set action : Byte) :
    (action.toNat = 1 → channelAction set action = enableChannels set) ∧
    (action.toNat = 2 → channelAction set action = disableChannels set) ∧
    (action.toNat = 3 → channelAction set action = clearFaultChannels set) ∧
    (action.toNat = 4 → channelAction set action = clearFlagsChannels set) ∧
    (action.toNat = 0 ∨ 5 ≤ action.toNat → channelAction set action = fun _ s => refuse .badArgument s) := by
  unfold channelAction
  refine ⟨fun h => by rw [h]; rfl, fun h => by rw [h]; rfl, fun h => by rw [h]; rfl, fun h => by rw [h]; rfl,
    fun unknown => ?_⟩
  split
  case h_5 => rfl
  all_goals omega

theorem timebaseAction_cases (set action : Byte) :
    (action.toNat = 1 → timebaseAction set action = startTimebases set) ∧
    (action.toNat = 2 → timebaseAction set action = stopTimebases set) ∧
    (action.toNat = 0 ∨ 3 ≤ action.toNat → timebaseAction set action = fun _ s => refuse .badArgument s) := by
  unfold timebaseAction
  refine ⟨fun h => by rw [h]; rfl, fun h => by rw [h]; rfl, fun unknown => ?_⟩
  split
  case h_3 => rfl
  all_goals omega

theorem tripAction_cases (action : Byte) :
    (action.toNat = 1 → tripAction action = forceTrip) ∧
    (action.toNat = 2 → tripAction action = clearTrip) ∧
    (action.toNat = 0 ∨ 3 ≤ action.toNat → tripAction action = fun _ s => refuse .badArgument s) := by
  unfold tripAction
  refine ⟨fun h => by rw [h]; rfl, fun h => by rw [h]; rfl, fun unknown => ?_⟩
  split
  case h_3 => rfl
  all_goals omega

/-! ### Rules that leave the pending restart -/

theorem foldl_restart {α : Type} (f : State → α → State) (h : ∀ s a, (f s a).mge.restart = s.mge.restart) (l : List α)
    (s : State) : (l.foldl f s).mge.restart = s.mge.restart := by
  induction l generalizing s with
  | nil => rfl
  | cons a l ih => exact (ih (f s a)).trans (h s a)

theorem restart_of_channelsWork {s u : State} (h : ChannelsWork s u) : u.mge.restart = s.mge.restart := by rw [h.mge]

theorem commit_keeps_restart (o : Origin) (s : State) : (commit o s).state.mge.restart = s.mge.restart := by
  rw [(commit_work o s).1.mge]

theorem boundary_keeps_restart (s : State) (t : Fin 2) : (s.boundary t).mge.restart = s.mge.restart := by
  rw [restart_of_channelsWork (s.boundary_work t), State.setTimebase_mge]

theorem startTimebase_keeps_restart (s : State) (t : Fin 2) : (s.startTimebase t).mge.restart = s.mge.restart := by
  rw [State.startTimebase, foldl_restart State.restartAges fun _ _ => rfl, boundary_keeps_restart]
  rfl

theorem startTimebases_keeps_restart (set : Byte) (o : Origin) (s : State) :
    (startTimebases set o s).state.mge.restart = s.mge.restart := by
  unfold startTimebases
  split
  · rfl
  · split
    · rfl
    · exact foldl_restart _ startTimebase_keeps_restart _ s

theorem stopTimebases_keeps_restart (set : Byte) (o : Origin) (s : State) :
    (stopTimebases set o s).state.mge.restart = s.mge.restart := by
  unfold stopTimebases
  split
  · rfl
  · exact foldl_restart State.stopTimebase (fun _ _ => rfl) _ s

theorem clearTrip_keeps_restart (o : Origin) (s : State) : (clearTrip o s).state.mge.restart = s.mge.restart := by
  unfold clearTrip
  split
  · rfl
  · refine foldl_restart _ (fun u n => ?_) _ _
    split <;> rfl

/-! ### Rows and payloads -/

/-- A row gives the state that a payload gives at the good end of its broadcast (R171). -/
def RunsAs (payload : List Byte) (s : State) (row : Instr) : Prop :=
  exec row s = .next (settleEdges s (executeBroadcast payload s).fixRestartPoint)

/-- A payload that executes the rule of a row, which leaves the pending restart, runs as the row. -/
theorem runsAs_of_rule (row : Instr) (rule : Rule) (payload : List Byte) (s : State) (high : s.released)
    (fixed : s.mge.restart ≠ some .carrier) (meaning : exec row s = event (carried .broadcast true rule) s)
    (executes : executeBroadcast payload s = (rule .broadcast s).state)
    (keeps : (rule .broadcast s).state.mge.restart = s.mge.restart) : RunsAs payload s row := by
  rw [RunsAs, meaning, event_high _ s high, executes, fixRestartPoint_of_ne _ (keeps ▸ fixed), carried_broadcast]

/-- The row of RESTART fixes the point that its rule leaves open, as the end event does. -/
theorem runsAs_restart (payload : List Byte) (s : State) (high : s.released)
    (executes : executeBroadcast payload s = (restart .broadcast s).state) : RunsAs payload s (.restart .broadcast) := by
  rw [RunsAs, executes]
  exact event_high (fun s => (carried .broadcast true restart s).fixRestartPoint) s high

/-- The rows of CHANNEL CONTROL by its action byte (R103, R192). -/
theorem channel_rows_run (payload : List Byte) (set action : Byte) (s : State) (high : s.released)
    (fixed : s.mge.restart ≠ some .carrier)
    (executes : executeBroadcast payload s = (channelAction set action .broadcast s).state) :
    (action.toNat = 1 → RunsAs payload s (.enable .broadcast set)) ∧
    (action.toNat = 2 → RunsAs payload s (.disable .broadcast set)) ∧
    (action.toNat = 3 → RunsAs payload s (.clearFault .broadcast set)) ∧
    (action.toNat = 4 → RunsAs payload s (.clearFlags .broadcast set)) ∧
    (action.toNat = 0 ∨ 5 ≤ action.toNat → executeBroadcast payload s = s) := by
  obtain ⟨enable, disable, clearFault, clearFlags, refused⟩ := channelAction_cases set action
  refine ⟨fun one => ?_, fun two => ?_, fun three => ?_, fun four => ?_, fun unknown => ?_⟩
  · rw [enable one] at executes
    exact runsAs_of_rule _ _ payload s high fixed rfl executes (restart_of_channelsWork (enableChannels_work set _ s))
  · rw [disable two] at executes
    exact runsAs_of_rule _ _ payload s high fixed rfl executes (restart_of_channelsWork (disableChannels_work set _ s))
  · rw [clearFault three] at executes
    exact runsAs_of_rule _ _ payload s high fixed rfl executes (restart_of_channelsWork (clearFaultChannels_work set _ s))
  · rw [clearFlags four] at executes
    exact runsAs_of_rule _ _ payload s high fixed rfl executes (restart_of_channelsWork (clearFlagsChannels_work set _ s))
  · rw [executes, refused unknown]
    rfl

/-- The rows of TIMEBASE CONTROL by its action byte (R115, R192). -/
theorem timebase_rows_run (payload : List Byte) (set action : Byte) (s : State) (high : s.released)
    (fixed : s.mge.restart ≠ some .carrier)
    (executes : executeBroadcast payload s = (timebaseAction set action .broadcast s).state) :
    (action.toNat = 1 → RunsAs payload s (.start .broadcast set)) ∧
    (action.toNat = 2 → RunsAs payload s (.stop .broadcast set)) ∧
    (action.toNat = 0 ∨ 3 ≤ action.toNat → executeBroadcast payload s = s) := by
  obtain ⟨start, stop, refused⟩ := timebaseAction_cases set action
  refine ⟨fun one => ?_, fun two => ?_, fun unknown => ?_⟩
  · rw [start one] at executes
    exact runsAs_of_rule _ _ payload s high fixed rfl executes (startTimebases_keeps_restart set _ s)
  · rw [stop two] at executes
    exact runsAs_of_rule _ _ payload s high fixed rfl executes (stopTimebases_keeps_restart set _ s)
  · rw [executes, refused unknown]
    rfl

/-- The rows of TRIP CONTROL by its action byte (R142). -/
theorem trip_rows_run (payload : List Byte) (action : Byte) (s : State) (high : s.released)
    (fixed : s.mge.restart ≠ some .carrier)
    (executes : executeBroadcast payload s = (tripAction action .broadcast s).state) :
    (action.toNat = 1 → RunsAs payload s (.force .broadcast)) ∧
    (action.toNat = 2 → RunsAs payload s (.clear .broadcast)) ∧
    (action.toNat = 0 ∨ 3 ≤ action.toNat → executeBroadcast payload s = s) := by
  obtain ⟨force, clear, refused⟩ := tripAction_cases action
  refine ⟨fun one => ?_, fun two => ?_, fun unknown => ?_⟩
  · rw [force one] at executes
    exact runsAs_of_rule _ _ payload s high fixed rfl executes rfl
  · rw [clear two] at executes
    exact runsAs_of_rule _ _ payload s high fixed rfl executes (clearTrip_keeps_restart _ s)
  · rw [executes, refused unknown]
    rfl

/-! ### The end of a telegram in PASSING (R29, R33) -/

/-- The two errors of one event count in either order (R19, R20). -/
theorem countError_comm (s : State) :
    (s.countError .crc).countError .overrun = (s.countError .overrun).countError .crc := by
  have counters : ((s.countError .crc).countError .overrun).lrx.counters =
      ((s.countError .overrun).countError .crc).lrx.counters := by
    have crc_kept : (s.lrx.counters.set 5 (saturate16 s.lrx.counters[5]))[0] = s.lrx.counters[0] :=
      Vector.getElem_set_ne _ _ (by decide)
    have overrun_kept : (s.lrx.counters.set 0 (saturate16 s.lrx.counters[0]))[5] = s.lrx.counters[5] :=
      Vector.getElem_set_ne _ _ (by decide)
    show (s.lrx.counters.set 0 _).set 5 (saturate16 (s.lrx.counters.set 0 (saturate16 s.lrx.counters[0]))[5]) =
      (s.lrx.counters.set 5 _).set 0 (saturate16 (s.lrx.counters.set 5 (saturate16 s.lrx.counters[5]))[0])
    rw [crc_kept, overrun_kept]
    exact Vector.set_comm _ _ (by decide)
  exact congrArg (fun v => { s with
    lrx := { s.lrx with counters := v }
    mge := { s.mge with flags := ((s.countError .crc).countError .overrun).mge.flags } }) counters

/-- The FIFO with the wait mark taken off check character 1, which leaves with this byte (R33). -/
def releaseWaiting (b : Byte) (cs : List LineChar) : List LineChar :=
  cs.map fun c => if c.wait then { c with data := b, wait := false } else c

/-- FWD closed after the end of a telegram (R25). -/
def closed (f : Fwd) : Fwd := { f with state := .idle, stage := [], hold := [], changed := false, acc := 0xFFFF }

/-- Below its capacity the FIFO has a place for one character more (R27). -/
theorem fits_one (s : State) (c : LineChar) (room : s.fwd.fifo.length < 128) : s.fits [c] = true :=
  decide_eq_true (show s.fwd.fifo.length + 1 ≤ 128 from room)

theorem endPassing_of_room (s : State) (good : Bool) (first : Byte) (c : LineChar) (room : s.fwd.fifo.length < 128) :
    s.endPassing good first c = { s with fwd := { closed s.fwd with
      fifo := releaseWaiting (s.fwd.checkChoice good first c.data).1 s.fwd.fifo ++
        [{ c with data := (s.fwd.checkChoice good first c.data).2 }]
      highWater := max s.fwd.highWater (s.fwd.fifo.length + 1) } } := by
  unfold State.endPassing
  dsimp only
  rw [State.enterFifo_fits _ _ (fits_one _ _ (by rw [List.length_map]; exact room))]
  simp [State.closeForward, closed, releaseWaiting]

theorem endPassing_of_full (s : State) (good : Bool) (first : Byte) (c : LineChar) (full : s.fwd.fifo.length = 128) :
    s.endPassing good first c = { s.countError .overrun with fwd := { closed s.fwd with
      fifo := releaseWaiting (s.fwd.checkChoice good first c.data).1 s.fwd.fifo
      highWater := max s.fwd.highWater 128 } } := by
  simp [State.endPassing, State.enterFifo, State.fits, State.level, Config.fifoCapacity, full, State.closeForward, closed,
    releaseWaiting, State.countError, State.setFlag]

/-- Each check byte of the inverted check value is the inverted check byte. -/
theorem extractLsb'_not (v : Half) (start : Nat) (h : start ≤ 8) :
    (~~~v).extractLsb' start 8 = ~~~v.extractLsb' start 8 := by
  ext i hi
  have inside : start + i < 16 := by omega
  simp [inside]

/-- The check bytes of R33: as received, regenerated, or poisoned. -/
theorem checkChoice_eq (f : Fwd) (first second : Byte) (good : Prop) [Decidable good] :
    f.checkChoice (decide good) first second =
      if f.changed = false then (first, second)
      else if good then (f.acc.extractLsb' 8 8, f.acc.extractLsb' 0 8)
      else (~~~f.acc.extractLsb' 8 8, ~~~f.acc.extractLsb' 0 8) := by
  unfold Fwd.checkChoice highByte lowByte
  cases f.changed with
  | false => rfl
  | true =>
    by_cases h : good
    · simp [h]
    · simp [h, extractLsb'_not f.acc 8 (by omega), extractLsb'_not f.acc 0 (by omega)]

/-- The FIFO finds the same room with an error counted. -/
theorem enterFifo_countError (s : State) (cs : List LineChar) :
    (s.countError .crc).enterFifo cs = (s.enterFifo cs).countError .crc := by
  cases h : s.fits cs with
  | true =>
    rw [State.enterFifo_fits s cs h, State.enterFifo_fits (s.countError .crc) cs h]
    rfl
  | false =>
    have none_fit : (s.countError .crc).fits cs = false := h
    simp only [State.enterFifo, h, none_fit, Bool.false_eq_true, if_false]
    exact countError_comm { s with fwd := { s.fwd with
      fifo := s.fwd.fifo ++ cs.take (Config.fifoCapacity - s.level)
      highWater := max s.fwd.highWater (s.fwd.fifo ++ cs.take (Config.fifoCapacity - s.level)).length } }

theorem endForward_passing (s : State) (t : Telegram) (good : Bool) (first : Byte) (c : LineChar)
    (passing : s.fwd.state = .passing) : s.endForward t good first c = s.endPassing good first c := by
  simp only [State.endForward, passing]

theorem endForward_cut (s : State) (t : Telegram) (good : Bool) (first : Byte) (c : LineChar)
    (cut : s.fwd.state = .cut) : s.endForward t good first c = s.closeForward := by
  simp only [State.endForward, cut]

theorem endForward_work (s : State) (t : Telegram) (good : Bool) (first : Byte) (c : LineChar)
    (forwarding : s.fwd.state = .passing ∨ s.fwd.state = .cut) : LineWork s (s.endForward t good first c) := by
  rcases forwarding with passing | cut
  · rw [endForward_passing s t good first c passing]
    exact s.endPassing_work good first c
  · rw [endForward_cut s t good first c cut]
    exact s.closeForward_work

/-- Whether the bad check is counted before FWD's end or after it makes no difference. -/
theorem endForward_countError (s : State) (t : Telegram) (good : Bool) (first : Byte) (c : LineChar)
    (forwarding : s.fwd.state = .passing ∨ s.fwd.state = .cut) :
    (s.countError .crc).endForward t good first c = (s.endForward t good first c).countError .crc := by
  rcases forwarding with passing | cut
  · rw [endForward_passing s t good first c passing, endForward_passing (s.countError .crc) t good first c passing]
    exact congrArg State.closeForward (enterFifo_countError { s with fwd := _ } _)
  · rw [endForward_cut s t good first c cut, endForward_cut (s.countError .crc) t good first c cut]
    rfl

/-! ### Check character 2 of a broadcast telegram (R6, R11, R39) -/

/-- LRX after the end of a telegram: the parser in IDLE, the gap timer stopped. -/
def parsed (s : State) : State := { s with lrx := { s.lrx with parser := .idle, gap := none } }

/-- The received check characters are those of the check value (R6, R11). -/
def CheckGood (s : State) (first second : Byte) : Prop :=
  first = s.lrx.acc.extractLsb' 8 8 ∧ second = s.lrx.acc.extractLsb' 0 8

theorem takeCheck2_of_good (s : State) (t : Telegram) (first : Byte) (c : LineChar) (broadcast : t.treatment = .broadcast)
    (good : CheckGood s first c.data) :
    s.takeCheck2 t first c = (executeBroadcast t.heard ((parsed s).endForward t true first c)).fixRestartPoint := by
  have decided : (decide (first = highByte s.lrx.acc) && decide (c.data = lowByte s.lrx.acc)) = true := by
    rw [Bool.and_eq_true, decide_eq_true_eq, decide_eq_true_eq]
    exact good
  simp only [State.takeCheck2, decided, if_true, State.endTelegram, broadcast]
  rfl

theorem takeCheck2_of_bad (s : State) (t : Telegram) (first : Byte) (c : LineChar) (broadcast : t.treatment = .broadcast)
    (bad : ¬CheckGood s first c.data) :
    s.takeCheck2 t first c = ((parsed s).countError .crc).endForward t false first c := by
  have decided : (decide (first = highByte s.lrx.acc) && decide (c.data = lowByte s.lrx.acc)) = false := by
    rw [← Bool.not_eq_true, Bool.and_eq_true, decide_eq_true_eq, decide_eq_true_eq]
    exact bad
  simp only [State.takeCheck2, decided, Bool.false_eq_true, if_false, State.endTelegram, broadcast]
  rfl

/-- The last character of a telegram, received without an error, is the parser's check character 2 (R1, R11). -/
theorem exec_check2 (s : State) (t : Telegram) (first data : Byte) (time : Nat) (high : s.released)
    (receiving : s.lrx.rx = .receiving true) (parser : s.lrx.parser = .check t (some first)) :
    exec (.characterReceived data false true time) s =
      .next (settleEdges s ((s.afterStopBit true).takeCheck2 t first ⟨data, false, time, false⟩)) := by
  show execCharacterReceived data false true time s = _
  unfold execCharacterReceived
  rw [event_high _ s high]
  simp only [receiving, if_true, State.parse, parser, State.inside, Bool.true_eq_false, if_false, Bool.false_eq_true]
  rfl

/-- The end of a broadcast telegram whose forwarding ends in `u`: its payload is executed there, or CRC is counted (R39, R171). -/
theorem exec_broadcast_end (s u : State) (t : Telegram) (first data : Byte) (time : Nat) (high : s.released)
    (receiving : s.lrx.rx = .receiving true) (parser : s.lrx.parser = .check t (some first))
    (broadcast : t.treatment = .broadcast) (forwarding : s.fwd.state = .passing ∨ s.fwd.state = .cut)
    (ends : ∀ good : Bool, (good = true ↔ CheckGood s first data) →
      (parsed (s.afterStopBit true)).endForward t good first ⟨data, false, time, false⟩ = u) :
    (CheckGood s first data → exec (.characterReceived data false true time) s =
      .next (settleEdges s (executeBroadcast t.heard u).fixRestartPoint)) ∧
    (¬CheckGood s first data → exec (.characterReceived data false true time) s = .next (u.countError .crc)) := by
  let c : LineChar := ⟨data, false, time, false⟩
  rw [exec_check2 s t first data time high receiving parser]
  constructor
  · intro good
    rw [takeCheck2_of_good (s.afterStopBit true) t first c broadcast good, ends true (by simp [good])]
  · intro bad
    have forwarded := ends false (by simp [bad])
    have work := endForward_work (parsed (s.afterStopBit true)) t false first c forwarding
    rw [forwarded] at work
    obtain ⟨-, -, chn, tb, out, tiu, -⟩ := work.blocks
    rw [takeCheck2_of_bad (s.afterStopBit true) t first c broadcast bad,
      endForward_countError (parsed (s.afterStopBit true)) t false first c forwarding, forwarded,
      settleEdges_of_blocks s (u.countError .crc) tb chn out tiu]

end Sys2Proof.Machine.Broadcast

open Sys2Proof.Machine.Broadcast

/-- Settles O59: the end event is FWD's end, then the payload's rule or the counted CRC; the rule is that of the payload's row. -/
theorem broadcastTelegramIsExecutedAtItsGoodEnd : Obligations.BroadcastTelegramIsExecutedAtItsGoodEnd := by
  refine ⟨?_, ?_, ?_, ?_⟩
  · intro s t first data time high receiving parser broadcast good sent released g closed base passed overran executed
    have choice : ∀ b : Bool, (b = true ↔ CheckGood s first data) → s.fwd.checkChoice b first data = sent := by
      intro b decided
      have same : b = decide good := by
        rw [Bool.eq_iff_iff, decided, decide_eq_true_eq]
        rfl
      rw [same, checkChoice_eq]
    have ends := fun u => exec_broadcast_end s u t first data time high receiving parser broadcast
    refine ⟨fun passing room => ends passed (.inl passing) fun b decided => ?_,
      fun passing full => ends overran (.inl passing) fun b decided => ?_, fun cut => ends base (.inr cut) fun b _ => ?_⟩
    · rw [endForward_passing (parsed g) t b first _ passing, endPassing_of_room (parsed g) b first _ room,
        show (parsed g).fwd.checkChoice b first data = sent from choice b decided]
      rfl
    · rw [endForward_passing (parsed g) t b first _ passing, endPassing_of_full (parsed g) b first _ full,
        show (parsed g).fwd.checkChoice b first data = sent from choice b decided]
      rfl
    · exact endForward_cut (parsed g) t b first _ cut
  · intro s
    by_cases h : s.mge.restart = some .carrier
    · rw [fixRestartPoint_of_carrier s h, if_pos h]
    · rw [fixRestartPoint_of_ne s h, if_neg h]
  · intro payload s high long code first second runs fixed
    refine ⟨fun h => ?_, fun h long5 => ?_, fun h long5 => ?_, fun h => ?_, fun h => ?_, fun h => ?_⟩
    · exact runsAs_of_rule _ _ payload s high fixed rfl (executeBroadcast_commit payload s h) (commit_keeps_restart _ s)
    · exact channel_rows_run payload _ _ s high fixed (executeBroadcast_channels payload s h long5)
    · exact timebase_rows_run payload _ _ s high fixed (executeBroadcast_timebases payload s h long5)
    · obtain ⟨force, clear, unknown⟩ := trip_rows_run payload _ s high fixed (executeBroadcast_trip payload s h long)
      refine ⟨fun one => force (congrArg BitVec.toNat one), fun two => clear (congrArg BitVec.toNat two),
        fun other => unknown ?_⟩
      exact other.imp_left (congrArg BitVec.toNat)
    · exact runsAs_of_rule _ _ payload s high fixed rfl (executeBroadcast_releaseAddress payload s h) rfl
    · exact runsAs_restart payload s high (executeBroadcast_restart payload s h)
  · intro payload s long code first second
    refine ⟨executeBroadcast_commit payload s, executeBroadcast_channels payload s, executeBroadcast_timebases payload s,
      fun h => executeBroadcast_trip payload s h long, executeBroadcast_releaseAddress payload s,
      executeBroadcast_restart payload s, fun n24 n30 n31 n33 n50 n51 => ?_, fun h short => ?_⟩
    · refine executeBroadcast_unpermitted payload s fun a r permitted => ?_
      rcases commandShape_permitted _ a r permitted with h | h | h | h | h | h
      · exact n24 h
      · exact n30 h
      · exact n31 h
      · exact n33 h
      · exact n50 h
      · exact n51 h
    · rcases h with h | h
      · exact executeBroadcast_short payload s 2 1 (by rw [show (byteAt payload 0).toNat = 0x30 from h]; rfl) (by omega)
      · exact executeBroadcast_short payload s 2 1 (by rw [show (byteAt payload 0).toNat = 0x31 from h]; rfl) (by omega)
end

section
/-! PROOFS. The field value: bytes by their order, two's complement, and single-precision patterns (R74, R75). -/

open Sys2Proof Sys2Proof.Machine

namespace Sys2Proof.Machine.Conversion

/-! ### Raw bytes as one number (R74) -/

theorem append_byte_toNat {w : Nat} (x : BitVec w) (b : Byte) : (x ++ b).toNat = b.toNat + 256 * x.toNat := by
  rw [BitVec.toNat_append, ← Nat.shiftLeft_add_eq_or_of_lt b.isLt, Nat.shiftLeft_eq]
  omega

theorem leNat_one (b : Byte) : leNat [b] = b.toNat := rfl

/-- The bytes that follow the first one stand above it. -/
theorem leNat_cons_of_eq {w : Nat} (b : Byte) (bs : List Byte) (x : BitVec w) (h : leNat bs = x.toNat) :
    leNat (b :: bs) = (x ++ b).toNat := by
  rw [append_byte_toNat, ← h]
  rfl

theorem leNat_two (b0 b1 : Byte) : leNat [b0, b1] = (b1 ++ b0).toNat := leNat_cons_of_eq b0 _ b1 (leNat_one b1)

theorem leNat_four (b0 b1 b2 b3 : Byte) : leNat [b0, b1, b2, b3] = (b3 ++ b2 ++ b1 ++ b0).toNat :=
  leNat_cons_of_eq b0 _ _ (leNat_cons_of_eq b1 _ _ (leNat_two b2 b3))

theorem leNat_lt (bs : List Byte) : leNat bs < 256 ^ bs.length := by
  induction bs with
  | nil => exact Nat.one_pos
  | cons b bs ih =>
    have first : b.toNat < 256 := b.isLt
    rw [leNat, List.length_cons, Nat.pow_succ]
    omega

theorem rawNumber_lt (order : ByteOrder) (raw : List Byte) : rawNumber order raw < 256 ^ raw.length := by
  cases order with
  | little => exact leNat_lt raw
  | big => simpa only [rawNumber, List.length_reverse] using leNat_lt raw.reverse

/-! ### Integers (R74) -/

theorem cast_byteRange (bytes : Nat) : ((256 ^ bytes : Nat) : Int) = 256 ^ bytes := Int.natCast_pow 256 bytes

/-- Two's complement of a whole number of bytes is that of the bit vector. -/
theorem signedOf_toNat {w : Nat} (x : BitVec w) (bytes : Nat) (h : w = 8 * bytes) : signedOf bytes x.toNat = x.toInt := by
  have range : 2 ^ w = 256 ^ bytes := by rw [h, Nat.pow_mul]
  rw [BitVec.toInt_eq_toNat_cond, range, cast_byteRange, signedOf]

theorem fieldValue_unsigned (order : ByteOrder) (raw : List Byte) {w : Nat} (x : BitVec w)
    (number : rawNumber order raw = x.toNat) : fieldValue .unsigned order raw = some (x.toNat : Int) := by
  simp only [fieldValue, number]

theorem fieldValue_signed (order : ByteOrder) (raw : List Byte) {w : Nat} (x : BitVec w)
    (number : rawNumber order raw = x.toNat) (width : w = 8 * raw.length) :
    fieldValue .signed order raw = some x.toInt := by
  simp only [fieldValue, number, signedOf_toNat x raw.length width]

/-- Big-endian bytes are the same bytes in the other order. -/
theorem fieldValue_big (format : Format) (raw : List Byte) :
    fieldValue format .big raw = fieldValue format .little raw.reverse := by
  cases format <;> simp only [fieldValue, rawNumber, List.length_reverse]

/-! ### Single-precision patterns (R75) -/

/-- The pattern with this sign bit, exponent field and fraction field. -/
def floatPattern (sign : Bool) (e f : Nat) : Nat := (if sign then 2 ^ 31 else 0) + e * 2 ^ 23 + f

/-- The magnitude 1.f times 2 to the exponent, cut toward zero. -/
def floatMagnitude (e f : Nat) : Nat := (2 ^ 23 + f) * 2 ^ (e - 127) / 2 ^ 23

theorem floatPattern_fields (sign : Bool) (e f : Nat) (he : e < 256) (hf : f < 8388608) :
    decide (floatPattern sign e f / 2 ^ 31 % 2 = 1) = sign ∧ floatPattern sign e f / 2 ^ 23 % 256 = e ∧
    floatPattern sign e f % 2 ^ 23 = f := by
  unfold floatPattern
  cases sign with
  | false => simp only [Bool.false_eq_true, if_false, decide_eq_false_iff_not]; omega
  | true => simp only [if_true, decide_eq_true_eq]; omega

/-- What a pattern stands for, read off its three fields. -/
theorem floatValue_floatPattern (sign : Bool) (e f : Nat) (he : e < 256) (hf : f < 8388608) :
    floatValue (floatPattern sign e f) =
      if e < 127 then some 0
      else if e < 158 then some (if sign then -(floatMagnitude e f : Int) else floatMagnitude e f)
      else if e = 158 ∧ sign = true ∧ f = 0 then some (-2147483648)
      else none := by
  obtain ⟨signBit, exponent, fraction⟩ := floatPattern_fields sign e f he hf
  simp only [floatValue, signBit, exponent, fraction, floatMagnitude]

theorem floatMagnitude_le (e f : Nat) : floatMagnitude e f * 2 ^ 23 ≤ (2 ^ 23 + f) * 2 ^ (e - 127) :=
  Nat.div_mul_le_self _ _

theorem lt_floatMagnitude_succ (e f : Nat) : (2 ^ 23 + f) * 2 ^ (e - 127) < (floatMagnitude e f + 1) * 2 ^ 23 := by
  rw [Nat.mul_comm (floatMagnitude e f + 1)]
  exact Nat.lt_mul_div_succ _ (by decide)

end Sys2Proof.Machine.Conversion

open Sys2Proof.Machine.Conversion

/-- Settles O44: the bytes as one bit vector in either order, and a pattern by its sign, exponent and fraction. -/
theorem fieldValueReadsTheFormat : Obligations.FieldValueReadsTheFormat := by
  refine ⟨fun b0 order => ?_, fun b0 b1 => ?_, fun b0 b1 b2 b3 format => ?_, ?_⟩
  · have number : rawNumber order [b0] = b0.toNat := by cases order <;> exact leNat_one b0
    exact ⟨fieldValue_unsigned order _ b0 number, fieldValue_signed order _ b0 number rfl⟩
  · exact ⟨fieldValue_unsigned .little _ _ (leNat_two b0 b1), fieldValue_unsigned .big _ _ (leNat_two b1 b0),
      fieldValue_signed .little _ _ (leNat_two b0 b1) rfl, fieldValue_signed .big _ _ (leNat_two b1 b0) rfl⟩
  · have number := leNat_four b0 b1 b2 b3
    exact ⟨fieldValue_big format _, fieldValue_unsigned .little _ _ number, fieldValue_signed .little _ _ number rfl,
      congrArg floatValue number⟩
  · intro sign e f he hf v
    have value : floatValue v = _ := floatValue_floatPattern sign e f he hf
    rw [value]
    refine ⟨fun small => if_pos small, fun unit inside => ?_, fun edge negative zero => ?_, fun large other => ?_⟩
    · refine ⟨floatMagnitude e f, floatMagnitude_le e f, lt_floatMagnitude_succ e f, ?_⟩
      rw [if_neg (by omega), if_pos (by omega)]
    · rw [if_neg (by omega), if_neg (by omega), if_pos ⟨edge, negative, zero⟩]
    · rw [if_neg (by omega), if_neg (by omega), if_neg other]
end

section
/-! PROOFS. Scaling, the comparison with the limits, and the range of a field value (R74 to R77). -/

open Sys2Proof Sys2Proof.Machine Sys2Proof.Machine.Conversion

namespace Sys2Proof.Machine.Conversion

/-! ### Scaling (R76) -/

/-- The divisor of R76 is positive. -/
theorem shift_pos (c : ConvRecord) : (0 : Int) < 2 ^ c.shift.toNat := Int.pow_pos (by decide)

/-- A shift is never a division by zero, so that rounding toward minus infinity is Euclidean division. -/
theorem scale_sub_offset (c : ConvRecord) (x : Int) :
    c.scale x - c.offset.toInt = x * c.gain.toInt / 2 ^ c.shift.toNat := by
  rw [ConvRecord.scale, Int.add_sub_cancel, Int.fdiv_eq_ediv_of_nonneg _ (Int.le_of_lt (shift_pos c))]

theorem scale_mul_le (c : ConvRecord) (x : Int) :
    (c.scale x - c.offset.toInt) * 2 ^ c.shift.toNat ≤ x * c.gain.toInt := by
  rw [scale_sub_offset]
  exact Int.ediv_mul_le _ (Int.ne_of_gt (shift_pos c))

theorem lt_scale_succ_mul (c : ConvRecord) (x : Int) :
    x * c.gain.toInt < (c.scale x - c.offset.toInt + 1) * 2 ^ c.shift.toNat := by
  rw [scale_sub_offset]
  exact Int.lt_ediv_add_one_mul_self _ (shift_pos c)

/-! ### Comparison and its result (R76, R77) -/

theorem compare_below (c : ConvRecord) (y : Int) (h : y < c.low.toInt) : c.compare y = .below := if_pos h

theorem compare_above (c : ConvRecord) (y : Int) (low : c.low.toInt ≤ y) (high : c.high.toInt < y) :
    c.compare y = .above := by
  rw [ConvRecord.compare, if_neg (Int.not_lt.mpr low), if_pos high]

theorem compare_within (c : ConvRecord) (y : Int) (low : c.low.toInt ≤ y) (high : y ≤ c.high.toInt) :
    c.compare y = .within := by
  rw [ConvRecord.compare, if_neg (Int.not_lt.mpr low), if_neg (Int.not_lt.mpr high)]

theorem compare_ne_unordered (c : ConvRecord) (y : Int) : c.compare y ≠ .unordered := by
  unfold ConvRecord.compare
  split
  · decide
  · split <;> decide

theorem convertNumber_within (mask : ExcSet) (c : ConvRecord) (x : Int) (h : c.compare (c.scale x) = .within) :
    convertNumber mask (some c) x = ⟨none, .within, .slot .valid (some (c.scale x))⟩ := by
  simp only [convertNumber, h]

theorem convertNumber_below (mask : ExcSet) (c : ConvRecord) (x : Int) (h : c.compare (c.scale x) = .below) :
    convertNumber mask (some c) x =
      ⟨some .range, .below, if mask.range then .slot .clamped (some c.low.toInt) else .fault .range⟩ := by
  simp only [convertNumber, h]

theorem convertNumber_above (mask : ExcSet) (c : ConvRecord) (x : Int) (h : c.compare (c.scale x) = .above) :
    convertNumber mask (some c) x =
      ⟨some .range, .above, if mask.range then .slot .clamped (some c.high.toInt) else .fault .range⟩ := by
  simp only [convertNumber, h]

/-- The code is the comparison's, and RANGE is raised outside the limits. -/
theorem convertNumber_code_raised (mask : ExcSet) (c : ConvRecord) (x : Int) :
    (convertNumber mask (some c) x).code = c.compare (c.scale x) ∧
    (convertNumber mask (some c) x).raised = if c.compare (c.scale x) = .within then none else some .range := by
  cases h : c.compare (c.scale x) with
  | below => rw [convertNumber_below mask c x h]; exact ⟨rfl, rfl⟩
  | within => rw [convertNumber_within mask c x h]; exact ⟨rfl, rfl⟩
  | above => rw [convertNumber_above mask c x h]; exact ⟨rfl, rfl⟩
  | unordered => exact absurd h (compare_ne_unordered c _)

/-- A stored record has its limits in order (R47): the undefined one has both 0. -/
theorem limits_of_decodeConvRecord (r : BitVec 128) (d : ConvRecord) (h : decodeConvRecord r = .ok d) :
    d.low.toInt ≤ d.high.toInt := by
  unfold decodeConvRecord at h
  dsimp only at h
  split at h
  · cases h
  · split at h
    · cases h
      decide
    · split at h
      · cases h
      · split at h
        next checked =>
          cases h
          exact checked.2
        · cases h

/-! ### The range of a field value (R74, R75) -/

theorem signedOf_range (bytes v : Nat) (h : v < 256 ^ bytes) :
    -((256 ^ bytes : Nat) : Int) ≤ 2 * signedOf bytes v ∧ 2 * signedOf bytes v < (256 ^ bytes : Nat) := by
  rw [signedOf, ← cast_byteRange]
  split <;> omega

theorem floatMagnitude_lt (e f : Nat) (he : e < 158) (hf : f < 2 ^ 23) : floatMagnitude e f < 2 ^ 31 := by
  refine Nat.div_lt_of_lt_mul ?_
  calc (2 ^ 23 + f) * 2 ^ (e - 127)
      < 2 ^ 24 * 2 ^ (e - 127) := Nat.mul_lt_mul_of_pos_right (by omega) (Nat.two_pow_pos _)
    _ ≤ 2 ^ 24 * 2 ^ 30 := Nat.mul_le_mul_left _ (Nat.pow_le_pow_right (by decide) (by omega))
    _ = 2 ^ 23 * 2 ^ 31 := by decide

/-- What a pattern stands for fits 32 bits of two's complement. -/
theorem floatValue_range (v : Nat) (x : Int) (h : floatValue v = some x) : -2147483648 ≤ x ∧ x ≤ 2147483647 := by
  unfold floatValue at h
  dsimp only at h
  split at h
  · cases h
    decide
  · split at h
    next small =>
      have magnitude := floatMagnitude_lt (v / 2 ^ 23 % 256) (v % 2 ^ 23) small (Nat.mod_lt _ (by decide))
      rw [← floatMagnitude] at h
      cases h
      split <;> omega
    · split at h
      · cases h
        decide
      · cases h

/-- The bytes of a field are at most four. -/
theorem fieldValue_range (format : Format) (order : ByteOrder) (raw : List Byte) (v : Int) (short : raw.length ≤ 4)
    (h : fieldValue format order raw = some v) : -2147483648 ≤ v ∧ v ≤ 4294967295 := by
  have number := rawNumber_lt order raw
  have power : 256 ^ raw.length ≤ 256 ^ 4 := Nat.pow_le_pow_right (by decide) short
  cases format with
  | unsigned =>
    cases h
    omega
  | signed =>
    have range := signedOf_range raw.length (rawNumber order raw) number
    cases h
    omega
  | float =>
    have range := floatValue_range _ v h
    omega

end Sys2Proof.Machine.Conversion

/-- Settles O45: the quotient is Euclidean division by a power of two, and the comparison has three branches. -/
theorem scalingRoundsDownAndCompares : Obligations.ScalingRoundsDownAndCompares := by
  intro c x
  refine ⟨scale_mul_le c x, lt_scale_succ_mul c x,
    fun y => ⟨compare_below c y, compare_above c y, compare_within c y⟩,
    fun mask => convertNumber_code_raised mask c x, fun low high mask => ?_, limits_of_decodeConvRecord,
    fieldValue_range, fun gain shift offset => ?_, fun gain shift offset => ⟨?_, ?_⟩⟩
  · rw [convertNumber_within mask c x (compare_within c _ low high)]
  · simp only [ConvRecord.scale, gain, shift, offset]
    decide
  · simp only [ConvRecord.scale, gain, shift, offset]
    decide
  · exact BitVec.toInt_lt
end

section
/-! PROOFS. The outcome of a conversion, and what becomes of it at the channel (R72, R77 to R80, R107). -/

open Sys2Proof Sys2Proof.Machine Sys2Proof.Machine.Conversion

namespace Sys2Proof.Machine.Conversion

/-! ### A value that raised INVALID (R78) -/

theorem convertInvalid_unmasked (mask : ExcSet) (record : Option ConvRecord) (h : mask.invalid = false) :
    convertInvalid mask record = ⟨some .invalid, .unordered, .fault .invalid⟩ := by
  simp only [convertInvalid, h, Bool.false_eq_true, if_false]

theorem convertInvalid_masked_none (mask : ExcSet) (h : mask.invalid = true) :
    convertInvalid mask none = ⟨some .invalid, .unordered, .slot .subst none⟩ := by
  simp only [convertInvalid, h, if_true]

theorem convertInvalid_masked_some (mask : ExcSet) (c : ConvRecord) (h : mask.invalid = true) :
    convertInvalid mask (some c) =
      ⟨some .invalid, .unordered, .slot .subst (if c.policy = .lowLimit then some c.low.toInt else none)⟩ := by
  simp only [convertInvalid, h, if_true]

/-- A conversion raises INVALID, RANGE or nothing (R75, R77). -/
theorem convert_raised (mask : ExcSet) (record : Option ConvRecord) (x : Option Int) :
    (convert mask record x).raised = none ∨ (convert mask record x).raised = some .invalid ∨
    (convert mask record x).raised = some .range := by
  match x, record with
  | none, _ => exact .inr (.inl rfl)
  | some v, none => exact .inl rfl
  | some v, some c =>
    have raised := (convertNumber_code_raised mask c v).2
    split at raised
    · exact .inl raised
    · exact .inr (.inr raised)

/-! ### The channel (R72, R80) -/

theorem takesPushes_iff (c : Channel) : c.takesPushes = true ↔ c.state = .armed ∨ c.state = .running := by
  simp only [Channel.takesPushes, decide_eq_true_eq]

theorem takesPushes_eq_false (c : Channel) (h : c.state = .disabled ∨ c.state = .fault) : c.takesPushes = false := by
  rcases h with disabled | fault
  · simp [Channel.takesPushes, disabled]
  · simp [Channel.takesPushes, fault]

theorem feed_of_taking (s : State) (n : Fin 6) (record : Option ConvRecord) (x : Option Int) (origin : SlotOrigin)
    (h : s.chn[n].state = .armed ∨ s.chn[n].state = .running) :
    s.feed n record x origin = s.deliver n (convert s.chn[n].mask record x) origin :=
  if_pos ((takesPushes_iff _).mpr h)

theorem feed_discarded (s : State) (n : Fin 6) (record : Option ConvRecord) (x : Option Int) (origin : SlotOrigin)
    (h : s.chn[n].state = .disabled ∨ s.chn[n].state = .fault) : s.feed n record x origin = s :=
  if_neg (ne_true_of_eq_false (takesPushes_eq_false _ h))

/-- The state with the flag of a raised exception set (R80, R109). -/
def flagged (s : State) (n : Fin 6) : Option Exc → State
  | some e => s.raise n e
  | none => s

theorem deliver_slot (s : State) (n : Fin 6) (r : Converted) (origin : SlotOrigin) (tag : Tag) (duty : Option Int)
    (h : r.outcome = .slot tag duty) :
    s.deliver n r origin = (flagged s n r.raised).push n ⟨tag, duty, r.code, origin⟩ := by
  simp only [State.deliver, h]
  cases r.raised <;> rfl

theorem deliver_fault (s : State) (n : Fin 6) (r : Converted) (origin : SlotOrigin) (cause : Exc)
    (h : r.outcome = .fault cause) : s.deliver n r origin = (flagged s n r.raised).enterFault n cause := by
  simp only [State.deliver, h]
  cases r.raised <;> rfl

end Sys2Proof.Machine.Conversion

/-- Settles O46: one case of `convert` for each value, mask and record; a channel that takes values is handed the result. -/
theorem conversionOutcomesFollowTheMask : Obligations.ConversionOutcomesFollowTheMask := by
  refine ⟨fun _ _ => rfl,
    fun mask c x => ⟨convertNumber_within mask c x, convertNumber_below mask c x, convertNumber_above mask c x⟩,
    convertInvalid_unmasked, convertInvalid_masked_none, convertInvalid_masked_some, ?_, fun _ _ _ => rfl⟩
  intro s n record x origin
  refine ⟨feed_discarded s n record x origin, fun taking => ?_⟩
  intro r sticky raised
  have state : raised = flagged s n r.raised := by
    rcases convert_raised s.chn[n].mask record x with h | h | h <;> simp only [raised, r, h] <;> rfl
  rw [feed_of_taking s n record x origin taking, state]
  cases h : r.outcome with
  | slot tag duty => exact deliver_slot s n r origin tag duty h
  | fault cause => exact deliver_fault s n r origin cause h
end

section
/-! PROOFS. PUSH SETPOINT: its tests in their order, and the value handed to the channel (R82 to R84, R192). -/

open Sys2Proof Sys2Proof.Machine Sys2Proof.Machine.Conversion

namespace Sys2Proof.Machine.Conversion

/-! ### The arguments (R82, R83) -/

theorem channelOf_of_large (b : Byte) (h : 6 ≤ b.toNat) : channelOf b = none := dif_neg (Nat.not_lt.mpr h)

theorem channelOf_of_eq (b : Byte) (n : Fin 6) (h : b.toNat = n.val) : channelOf b = some n := by
  rw [channelOf, dif_pos (h ▸ n.isLt)]
  exact congrArg some (Fin.ext h)

theorem pushValue_of_large (format : Byte) (value : Word) (h : 5 ≤ format.toNat) : pushValue format value = none := by
  match code : format.toNat, h with
  | k + 5, _ => simp only [pushValue, code]

/-- The two low bytes of the value as two's complement. -/
theorem signedOf_low_half (value : Word) : signedOf 2 (value.toNat % 65536) = (BitVec.ofNat 16 value.toNat).toInt :=
  signedOf_toNat (BitVec.ofNat 16 value.toNat) 2 rfl

/-- The five formats of R192. -/
theorem pushValue_of_format (format : Byte) (value : Word) (x : Option Int)
    (h : (format = 0 ∧ x = some (value.toNat % 65536 : Nat)) ∨
      (format = 1 ∧ x = some (BitVec.ofNat 16 value.toNat).toInt) ∨
      (format = 2 ∧ x = some value.toNat) ∨ (format = 3 ∧ x = some value.toInt) ∨
      (format = 4 ∧ x = floatValue value.toNat)) : pushValue format value = some x := by
  rcases h with ⟨rfl, rfl⟩ | ⟨rfl, rfl⟩ | ⟨rfl, rfl⟩ | ⟨rfl, rfl⟩ | ⟨rfl, rfl⟩
  · rfl
  · exact congrArg (fun v => some (some v)) (signedOf_low_half value)
  · rfl
  · exact congrArg (fun v => some (some v)) (signedOf_toNat value 4 rfl)
  · rfl

/-! ### The record a conversion index names (R44, R82) -/

theorem recordFor_of_eq (m : MapUnit) (index : Byte) (k : Fin 16) (h : index.toNat = k.val) :
    m.recordFor index = some m.activeConv[k] := by
  rw [MapUnit.recordFor, h]
  exact Vector.getElem?_eq_getElem k.isLt

theorem recordFor_of_large (m : MapUnit) (index : Byte) (h : 16 ≤ index.toNat) : m.recordFor index = none :=
  Vector.getElem?_eq_none h

/-- The index of a record is not the index that names none. -/
theorem ne_noRecord_of_eq (index : Byte) (k : Fin 16) (h : index.toNat = k.val) : index ≠ 0xFF := by
  rintro rfl
  have small := k.isLt
  rw [← h] at small
  exact absurd small (by decide)

theorem pushRecord_of_noRecord (s : State) : s.pushRecord 0xFF = some none := if_pos rfl

theorem pushRecord_of_large (s : State) (conversion : Byte) (h : 16 ≤ conversion.toNat) (other : conversion ≠ 0xFF) :
    s.pushRecord conversion = none := by
  simp only [State.pushRecord, if_neg other, recordFor_of_large s.map conversion h]

theorem pushRecord_of_eq (s : State) (conversion : Byte) (k : Fin 16) (h : conversion.toNat = k.val) :
    s.pushRecord conversion = if s.map.activeConv[k].defined then some (some s.map.activeConv[k]) else none := by
  simp only [State.pushRecord, if_neg (ne_noRecord_of_eq conversion k h), recordFor_of_eq s.map conversion k h]

/-! ### The rule (R82, R84) -/

section
variable (channel format conversion : Byte) (value : Word) (o : Origin) (s : State)

/-- Tests 1 to 4 of R82. -/
theorem pushSetpoint_badArgument
    (h : channelOf channel = none ∨ pushValue format value = none ∨ s.pushRecord conversion = none) :
    pushSetpoint channel format conversion value o s = refuse .badArgument s := by
  unfold pushSetpoint
  cases hn : channelOf channel with
  | none => rfl
  | some n =>
    cases hx : pushValue format value with
    | none => rfl
    | some x =>
      cases hr : s.pushRecord conversion with
      | none => rfl
      | some record => simp [hn, hx, hr] at h

variable (n : Fin 6) (x : Option Int) (record : Option ConvRecord)

/-- Test 5 of R82. -/
theorem pushSetpoint_wrongState (hn : channelOf channel = some n) (hx : pushValue format value = some x)
    (hr : s.pushRecord conversion = some record) (h : s.chn[n].state = .disabled ∨ s.chn[n].state = .fault) :
    pushSetpoint channel format conversion value o s = refuse .wrongState s := by
  simp only [pushSetpoint, hn, hx, hr, takesPushes_eq_false s.chn[n] h, Bool.false_eq_true, if_false]

/-- The value is handed over as that of a telegram is, with management origin, and the reply tells what became of it (R84). -/
theorem pushSetpoint_taken (hn : channelOf channel = some n) (hx : pushValue format value = some x)
    (hr : s.pushRecord conversion = some record) (h : s.chn[n].state = .armed ∨ s.chn[n].state = .running) :
    pushSetpoint channel format conversion value o s = doneWith (s.feed n record x .management)
      [(convert s.chn[n].mask record x).outcome.tagByte, BitVec.ofNat 8 (convert s.chn[n].mask record x).code.code,
       BitVec.ofNat 8 (s.feed n record x .management).chn[n].state.code,
       BitVec.ofNat 8 (s.feed n record x .management).rings[n].slots.length] := by
  simp only [pushSetpoint, hn, hx, hr, (takesPushes_iff s.chn[n]).mpr h, if_true, feed_of_taking s n record x _ h]

end

/-! ### The row (R168, R170) -/

theorem exec_pushSetpoint (channel format conversion : Byte) (value : Word) (s : State) (high : s.released) :
    exec (.pushSetpoint .held channel format conversion value) s =
      .next (settleEdges s (pushSetpoint channel format conversion value .command s).record) :=
  event_high (carried .held false (pushSetpoint channel format conversion value)) s high

/-- A refusal is its answer alone. -/
theorem exec_pushSetpoint_refused (channel format conversion : Byte) (value : Word) (s : State) (high : s.released)
    (result : Result) (h : pushSetpoint channel format conversion value .command s = refuse result s) :
    exec (.pushSetpoint .held channel format conversion value) s = .next (s.answered result) := by
  rw [exec_pushSetpoint channel format conversion value s high, h]
  exact congrArg _ (settleEdges_of_blocks s (s.answered result) rfl rfl rfl rfl)

end Sys2Proof.Machine.Conversion

/-- Settles O47: each argument's test decides one step of the rule, and the rest is the hand-over of any value. -/
theorem pushSetpointConvertsAndPushes : Obligations.PushSetpointConvertsAndPushes := by
  refine ⟨rfl, rfl, fun s channel format conversion value high => ⟨fun bad => ?_, ?_⟩⟩
  · refine exec_pushSetpoint_refused channel format conversion value s high _
      (pushSetpoint_badArgument channel format conversion value _ s ?_)
    rcases bad with large | large | ⟨large, other⟩ | ⟨k, index, missing⟩
    · exact .inl (channelOf_of_large channel large)
    · exact .inr (.inl (pushValue_of_large format value large))
    · exact .inr (.inr (pushRecord_of_large s conversion large other))
    · refine .inr (.inr ?_)
      rw [pushRecord_of_eq s conversion k index, if_neg (ne_true_of_eq_false missing)]
  · intro n record x number reads names
    have hn : channelOf channel = some n := channelOf_of_eq channel n number
    have hx : pushValue format value = some x := pushValue_of_format format value x reads
    have hr : s.pushRecord conversion = some record := by
      rcases names with ⟨rfl, rfl⟩ | ⟨k, index, present, rfl⟩
      · exact pushRecord_of_noRecord s
      · rw [pushRecord_of_eq s conversion k index, if_pos present]
    refine ⟨fun idle => ?_, fun taking => ?_⟩
    · exact exec_pushSetpoint_refused channel format conversion value s high _
        (pushSetpoint_wrongState channel format conversion value _ s n x record hn hx hr idle)
    · intro r u
      rw [exec_pushSetpoint channel format conversion value s high,
        pushSetpoint_taken channel format conversion value _ s n x record hn hx hr taking]
      show Host.Outcome.next (settleEdges s (u.answered .done [r.outcome.tagByte, _, _, _])) = _
      rcases r.outcome with ⟨_ | _ | _, _⟩ | _ <;> rfl
end

section
/-! PROOFS. Pushes to a ring, and the boundary that pops one: R89 to R95, R107, R120. -/

open Sys2Proof Sys2Proof.Machine Sys2Proof.Machine.Conversion

namespace Sys2Proof.Machine.Setpoints

/-! ### A push (R89 to R92) -/

section
variable (s : State) (n : Fin 6) (slot : Slot)

/-- R92. -/
theorem push_latest (mode : s.rings[n].mode = .latest) :
    s.push n slot = s.setRing n { s.rings[n] with slots := [slot] } := by
  simp only [State.push, mode]

variable (mode : s.rings[n].mode = .queued)
include mode

/-- R89. -/
theorem push_room (room : s.rings[n].slots.length < s.rings[n].depth) :
    s.push n slot = s.setRing n { s.rings[n] with slots := s.rings[n].slots ++ [slot] } := by
  simp only [State.push, mode, if_pos room]

/-- R90. -/
theorem push_full_masked (full : s.rings[n].depth ≤ s.rings[n].slots.length) (masked : s.chn[n].mask.overrun = true) :
    s.push n slot =
      (s.raise n .overrun).setRing n { s.rings[n] with slots := s.rings[n].slots.drop 1 ++ [slot] } := by
  simp only [State.push, mode, if_neg (Nat.not_lt.mpr full), masked, if_true]

/-- R91. -/
theorem push_full_unmasked (full : s.rings[n].depth ≤ s.rings[n].slots.length)
    (unmasked : s.chn[n].mask.overrun = false) :
    s.push n slot = (s.raise n .overrun).enterFault n .overrun := by
  simp only [State.push, mode, if_neg (Nat.not_lt.mpr full), unmasked, Bool.false_eq_true, if_false]

end

/-! ### A ring fed faster than it is popped (R90) -/

/-- A full QUEUED ring whose OVERRUN is masked: each push overruns it and leaves it so. -/
structure Overrunning (s : State) (n : Fin 6) : Prop where
  mode : s.rings[n].mode = .queued
  full : s.rings[n].slots.length = s.rings[n].depth
  depth : 1 ≤ s.rings[n].depth
  masked : s.chn[n].mask.overrun = true

section
variable {s : State} {n : Fin 6}

theorem Overrunning.push_eq (h : Overrunning s n) (slot : Slot) :
    s.push n slot =
      (s.raise n .overrun).setRing n { s.rings[n] with slots := s.rings[n].slots.drop 1 ++ [slot] } :=
  push_full_masked s n slot h.mode (Nat.le_of_eq h.full.symm) h.masked

theorem Overrunning.push_ring (h : Overrunning s n) (slot : Slot) :
    (s.push n slot).rings[n] = { s.rings[n] with slots := s.rings[n].slots.drop 1 ++ [slot] } := by
  rw [h.push_eq, State.setRing_get, if_pos rfl]

theorem Overrunning.push_length (h : Overrunning s n) (slot : Slot) :
    (s.push n slot).rings[n].slots.length = s.rings[n].depth := by
  have full := h.full
  have depth := h.depth
  rw [h.push_ring, List.length_append, List.length_drop, List.length_singleton]
  omega

theorem Overrunning.push (h : Overrunning s n) (slot : Slot) : Overrunning (s.push n slot) n where
  mode := by rw [h.push_ring]; exact h.mode
  full := by rw [h.push_length, h.push_ring]
  depth := by rw [h.push_ring]; exact h.depth
  masked := by rw [h.push_eq, State.setRing_chn, (s.raise_get n .overrun).1]; exact h.masked

/-- The newest slots are kept, in push order: of the slots held and pushed, as many are lost from the head as were pushed. -/
theorem Overrunning.foldl_slots (h : Overrunning s n) (more : List Slot) :
    (more.foldl (fun u x => u.push n x) s).rings[n].slots = (s.rings[n].slots ++ more).drop more.length := by
  induction more generalizing s with
  | nil => simp
  | cons x more ih =>
    have held : 1 ≤ s.rings[n].slots.length := h.full ▸ h.depth
    calc (more.foldl (fun u x => u.push n x) (s.push n x)).rings[n].slots
        = ((s.push n x).rings[n].slots ++ more).drop more.length := ih (h.push x)
      _ = ((s.rings[n].slots.drop 1 ++ [x]) ++ more).drop more.length := by rw [h.push_ring]
      _ = ((s.rings[n].slots ++ x :: more).drop 1).drop more.length := by
          rw [List.drop_append_of_le_length held, List.append_assoc, List.singleton_append]
      _ = (s.rings[n].slots ++ x :: more).drop (x :: more).length := by
          rw [List.drop_drop, List.length_cons, Nat.add_comm]

end

/-! ### A channel that an exception faults (R107, R109) -/

/-- The flag raised and the channel faulted, in one update of its record. -/
theorem raise_enterFault (s : State) (n : Fin 6) (e cause : Exc) :
    (s.raise n e).enterFault n cause =
      { s with
        chn := s.chn.set n (Channel.faulted { s.chn[n] with sticky := s.chn[n].sticky.insert e } cause)
        rings := s.rings.set n s.rings[n].emptied
        mge := { s.mge with flags := s.mge.flags ||| (1#13 <<< n.val) } } := by
  have chn : (s.raise n e).chn.set n ((s.raise n e).chn[n].faulted cause) =
      s.chn.set n (Channel.faulted { s.chn[n] with sticky := s.chn[n].sticky.insert e } cause) := by
    rw [(s.raise_get n e).1]
    exact Vector.set_set ..
  simp only [State.enterFault, State.setFlag, State.setRing, State.setChannel, chn]
  rfl

/-! ### The boundary of one channel (R93 to R95, R119, R120) -/

theorem takeDeadTime_get (s : State) (n : Fin 6) :
    (s.takeDeadTime n).chn[n] = { s.chn[n] with deadTime := s.out[n].stagedDeadTime } := by
  rw [State.takeDeadTime, State.setChannel_get, if_pos rfl]

section
variable (s : State) (n : Fin 6) (period : Nat) (takes : s.chn[n].state = .armed ∨ s.chn[n].state = .running)
include takes

/-- A pending exception is tested before the pop (R120 (1)). -/
theorem channelBoundary_pending (e : Exc) (pending : s.chn[n].firstPending = some e) :
    s.channelBoundary period n = (s.takeDeadTime n).enterFault n e := by
  have taken := takeDeadTime_get s n
  have state : (s.takeDeadTime n).chn[n].state = s.chn[n].state := by rw [taken]
  have first : (s.takeDeadTime n).chn[n].firstPending = some e := by rw [taken]; exact pending
  simp only [State.channelBoundary, state, if_pos takes, first]

theorem channelBoundary_pop (clear : s.chn[n].firstPending = none) :
    s.channelBoundary period n = (s.takeDeadTime n).popApply n period := by
  have taken := takeDeadTime_get s n
  have state : (s.takeDeadTime n).chn[n].state = s.chn[n].state := by rw [taken]
  have first : (s.takeDeadTime n).chn[n].firstPending = none := by rw [taken]; exact clear
  simp only [State.channelBoundary, state, if_pos takes, first]

/-- The slot at the head leaves the ring and its duty, or the duty as it stands, is applied (R93, R121). -/
theorem channelBoundary_slot (clear : s.chn[n].firstPending = none) (slot : Slot) (rest : List Slot)
    (slots : s.rings[n].slots = slot :: rest) :
    (s.channelBoundary period n).chn[n] =
      Channel.applied { s.chn[n] with deadTime := s.out[n].stagedDeadTime } (slot.duty.getD s.chn[n].duty) slot.code period ∧
    (s.channelBoundary period n).rings[n] = { s.rings[n] with slots := rest } := by
  have head : (s.takeDeadTime n).rings[n].slots = slot :: rest := slots
  have popped : (s.takeDeadTime n).popApply n period =
      ((s.takeDeadTime n).setRing n { s.rings[n] with slots := rest }).setChannel n
        ((s.takeDeadTime n).chn[n].applied (slot.duty.getD (s.takeDeadTime n).chn[n].duty) slot.code period) := by
    simp only [State.popApply, head]
    rfl
  rw [channelBoundary_pop s n period takes clear, popped]
  refine ⟨?_, ?_⟩
  · rw [State.setChannel_get, if_pos rfl, takeDeadTime_get]
  · rw [State.setChannel_rings, State.setRing_get, if_pos rfl]

end

/-- A duty that stands is clamped to the new period alone (R121). -/
theorem clampDuty_natCast (duty period : Nat) : clampDuty duty period = min duty period := by
  unfold clampDuty
  split
  · omega
  · split <;> omega

end Sys2Proof.Machine.Setpoints

open Sys2Proof.Machine.Setpoints

/-- Settles O48: one equation of `State.push` for each mode and mask; the run of pushes by induction, each push leaving the ring
full; the discarded values by the state FAULT. -/
theorem pushFillsReplacesOrOverruns : Obligations.PushFillsReplacesOrOverruns := by
  refine ⟨fun s n slot => ⟨fun mode full depth masked => ?_, fun mode => ⟨?_, ?_⟩⟩,
    fun s n slot mode => ⟨fun room => ?_, fun full unmasked => ⟨?_, ?_⟩⟩⟩
  · have h : Overrunning s n := ⟨mode, full, depth, masked⟩
    exact ⟨h.push_eq slot, h.push_length slot, h.foldl_slots⟩
  · exact push_latest s n slot mode
  · intro _ repeats running clear period
    have ring : (s.push n slot).rings[n].slots = [slot] := by
      rw [push_latest s n slot mode, State.setRing_get, if_pos rfl]
    have channel : (s.push n slot).chn[n] = s.chn[n] := by rw [push_latest s n slot mode, State.setRing_chn]
    have applied := (channelBoundary_slot (s.push n slot) n period (.inr (channel ▸ running)) (channel ▸ clear)
      slot [] ring).1
    rw [applied, channel, repeats]
    exact clampDuty_natCast _ _
  · exact push_room s n slot mode room
  · rw [push_full_unmasked s n slot mode full unmasked, raise_enterFault]
    rfl
  · intro record x origin
    refine feed_discarded _ n record x origin (.inr ?_)
    rw [push_full_unmasked s n slot mode full unmasked, (State.enterFault_get _ n .overrun).1]
    rfl
end

section
/-! PROOFS. An ARMED channel at the boundaries before its first slot, and at the one that finds it (R95). -/

open Sys2Proof Sys2Proof.Machine Sys2Proof.Machine.Setpoints

namespace Sys2Proof.Machine.Setpoints

/-- An ARMED channel that waits: an empty ring, and no exception pending. -/
structure Waiting (s : State) (n : Fin 6) : Prop where
  armed : s.chn[n].state = .armed
  clear : s.chn[n].firstPending = none
  empty : s.rings[n].slots = []

theorem popApply_of_waiting {s : State} {n : Fin 6} (h : Waiting s n) (period : Nat) : s.popApply n period = s := by
  simp only [State.popApply, h.empty, h.armed, reduceCtorEq, if_false]

/-- The staged dead time does not bear on the wait (R119). -/
theorem Waiting.takeDeadTime {s : State} {n : Fin 6} (h : Waiting s n) : Waiting (s.takeDeadTime n) n where
  armed := by rw [takeDeadTime_get]; exact h.armed
  clear := by rw [takeDeadTime_get]; exact h.clear
  empty := h.empty

/-- A boundary finds nothing for a waiting channel but its dead time. -/
theorem Waiting.channelBoundary_eq {s : State} {n : Fin 6} (h : Waiting s n) (period : Nat) :
    s.channelBoundary period n = s.takeDeadTime n := by
  rw [channelBoundary_pop s n period (.inl h.armed) h.clear, popApply_of_waiting h.takeDeadTime period]

/-- The wait has no limit of boundaries; the duty and the sticky flags stand. -/
theorem Waiting.repeat {s : State} {n : Fin 6} (h : Waiting s n) (period k : Nat) :
    let u := Nat.repeat (fun u => u.channelBoundary period n) k s
    Waiting u n ∧ u.chn[n].duty = s.chn[n].duty ∧ u.chn[n].sticky = s.chn[n].sticky := by
  induction k with
  | zero => exact ⟨h, rfl, rfl⟩
  | succ k ih =>
    obtain ⟨waiting, duty, sticky⟩ := ih
    simp only [Nat.repeat, waiting.channelBoundary_eq period]
    refine ⟨waiting.takeDeadTime, ?_, ?_⟩
    · rw [takeDeadTime_get]; exact duty
    · rw [takeDeadTime_get]; exact sticky

end Sys2Proof.Machine.Setpoints

/-- Settles O49: the wait by induction on the boundaries; the first slot and a pending exception by the tests of one boundary. -/
theorem armedChannelWaitsForItsFirstSlot : Obligations.ArmedChannelWaitsForItsFirstSlot := by
  intro s n period armed duty
  refine ⟨fun clear empty => ?_, fun clear slot rest slots => ?_, fun e pending => ?_⟩
  · have h : Waiting s n := ⟨armed, clear, empty⟩
    refine ⟨h.channelBoundary_eq period, fun k => ?_⟩
    obtain ⟨waiting, same, sticky⟩ := h.repeat period k
    exact ⟨waiting.armed, same.trans duty, sticky⟩
  · obtain ⟨channel, ring⟩ := channelBoundary_slot s n period (.inl armed) clear slot rest slots
    rw [channel, ring]
    exact ⟨rfl, rfl, rfl⟩
  · rw [channelBoundary_pending s n period (.inl armed) e pending]
    obtain ⟨channel, ring⟩ := State.enterFault_get (s.takeDeadTime n) n e
    rw [channel, ring]
    exact ⟨rfl, rfl, rfl⟩
end

section
/-! PROOFS. CHANNEL CONTROL over a set: ENABLE, DISABLE and CLEAR_FAULT as one update of the selected channels (R103 to R106). -/

open Sys2Proof Sys2Proof.Machine

namespace Sys2Proof.Machine.Setpoints

/-! ### Held rows (R168, R170) -/

section
variable (p : Bool) (rule : Rule) (s : State) (high : s.released)
include high

theorem event_held_done {u : State} (h : rule .command s = doneWith u) :
    event (carried .held p rule) s = .next (settleEdges s (u.answered .done)) := by
  rw [event_high _ s high, carried_held, h]
  rfl

/-- A refusal is its answer alone. -/
theorem event_held_refused {result : Result} (h : rule .command s = refuse result s) :
    event (carried .held p rule) s = .next (s.answered result) := by
  rw [event_high _ s high, carried_held, h]
  exact congrArg _ (settleEdges_of_blocks s (s.answered result) rfl rfl rfl rfl)

theorem event_broadcast_done {u : State} (h : rule .broadcast s = doneWith u) :
    event (carried .broadcast true rule) s = .next (settleEdges s u) := by
  rw [event_high _ s high, carried_broadcast, h]
  rfl

end

/-! ### One update of a channel and its ring, and of all channels of a set -/

/-- The record of channel `n` and its ring replaced, each by what they were. -/
def rewriteChannel (c : Channel → Channel) (r : Channel → Ring → Ring) (s : State) (n : Fin 6) : State :=
  (s.setChannel n (c s.chn[n])).setRing n (r s.chn[n] s.rings[n])

/-- The same for every channel of a set at once. -/
def rewriteSet (c : Channel → Channel) (r : Channel → Ring → Ring) (set : Fin 6 → Bool) (s : State) : State :=
  { s with
    chn := Vector.ofFn fun n : Fin 6 => if set n then c s.chn[n] else s.chn[n]
    rings := Vector.ofFn fun n : Fin 6 => if set n then r s.chn[n] s.rings[n] else s.rings[n] }

theorem rewriteSet_empty (c : Channel → Channel) (r : Channel → Ring → Ring) (s : State) :
    rewriteSet c r (fun _ => false) s = s := by
  simp only [rewriteSet, Bool.false_eq_true, if_false, Fin.getElem_fin, Vector.ofFn_getElem]

/-- What a set update says channel by channel. -/
theorem rewriteSet_congr {c d : Channel → Channel} {r q : Channel → Ring → Ring} {set selected : Fin 6 → Bool} (u s : State)
    (rest : { u with chn := s.chn, rings := s.rings } = s)
    (chn : ∀ n : Fin 6, (if set n then c u.chn[n] else u.chn[n]) = if selected n then d s.chn[n] else s.chn[n])
    (rings : ∀ n : Fin 6, (if set n then r u.chn[n] u.rings[n] else u.rings[n]) =
      if selected n then q s.chn[n] s.rings[n] else s.rings[n]) :
    rewriteSet c r set u = rewriteSet d q selected s := by
  simp only [rewriteSet, chn, rings]
  rw [← rest]

/-- An update that keeps the channels with a property is the update of the others. -/
theorem rewriteSet_unless (c : Channel → Channel) (r : Channel → Ring → Ring) (kept : ChannelState) (set : Fin 6 → Bool)
    (s : State) :
    rewriteSet (fun x => if x.state = kept then x else c x) (fun x y => if x.state = kept then y else r x y) set s =
      rewriteSet c r (fun n => set n && s.chn[n].state != kept) s := by
  refine rewriteSet_congr s s rfl (fun n => ?_) (fun n => ?_)
  · by_cases there : s.chn[n].state = kept <;> simp [-Fin.getElem_fin, there]
  · by_cases there : s.chn[n].state = kept <;> simp [-Fin.getElem_fin, there]

/-- Channels are updated independently of each other: first one outside the set, then the set. -/
theorem rewriteSet_rewriteChannel (c : Channel → Channel) (r : Channel → Ring → Ring) (set : Fin 6 → Bool) (s : State)
    (n : Fin 6) (outside : set n = false) :
    rewriteSet c r set (rewriteChannel c r s n) = rewriteSet c r (fun m => m == n || set m) s := by
  have chn (m : Fin 6) : (rewriteChannel c r s n).chn[m] = if m = n then c s.chn[n] else s.chn[m] := by
    rw [rewriteChannel, State.setRing_chn, State.setChannel_get]
  have rings (m : Fin 6) :
      (rewriteChannel c r s n).rings[m] = if m = n then r s.chn[n] s.rings[n] else s.rings[m] := by
    rw [rewriteChannel, State.setRing_get, State.setChannel_rings]
  refine rewriteSet_congr _ _ rfl (fun m => ?_) (fun m => ?_)
  · rw [chn]
    by_cases same : m = n
    · subst same; simp [outside]
    · simp [same]
  · rw [chn, rings]
    by_cases same : m = n
    · subst same; simp [outside]
    · simp [same]

/-- Over a list without repetitions the updates one after another are the update of the listed channels. -/
theorem foldl_rewriteChannel (c : Channel → Channel) (r : Channel → Ring → Ring) (l : List (Fin 6)) (s : State)
    (distinct : l.Nodup) :
    l.foldl (rewriteChannel c r) s = rewriteSet c r (fun n => l.contains n) s := by
  induction l generalizing s with
  | nil => exact (rewriteSet_empty c r s).symm
  | cons n l ih =>
    obtain ⟨outside, rest⟩ := List.nodup_cons.mp distinct
    rw [List.foldl_cons, ih _ rest, rewriteSet_rewriteChannel c r _ s n (by simpa using outside)]
    rfl

theorem mem_selectedChannels (set : Byte) (n : Fin 6) : n ∈ selectedChannels set ↔ set.getLsbD n.val = true := by
  have listed : n ∈ allChannels := by revert n; decide
  simp [selectedChannels, listed]

theorem nodup_selectedChannels (set : Byte) : (selectedChannels set).Nodup :=
  List.Pairwise.filter _ (show allChannels.Nodup by decide)

theorem foldl_selectedChannels (c : Channel → Channel) (r : Channel → Ring → Ring) (set : Byte) (s : State) :
    (selectedChannels set).foldl (rewriteChannel c r) s = rewriteSet c r (fun n => set.getLsbD n.val) s := by
  rw [foldl_rewriteChannel c r _ s (nodup_selectedChannels set)]
  congr 1
  funext n
  rw [Bool.eq_iff_iff, List.contains_iff_mem, mem_selectedChannels]

/-! ### ENABLE, CLEAR_FAULT and DISABLE as such updates (R104 to R106) -/

/-- ARMED with an empty ring: ENABLE and CLEAR_FAULT. -/
theorem arm_eq_rewriteChannel : State.arm = rewriteChannel (·.rested .armed) (fun _ r => r.emptied) := rfl

theorem setChannel_self (s : State) (n : Fin 6) : s.setChannel n s.chn[n] = s := by
  simp only [State.setChannel, Fin.getElem_fin, Vector.set_getElem_self]

theorem setRing_self (s : State) (n : Fin 6) : s.setRing n s.rings[n] = s := by
  simp only [State.setRing, Fin.getElem_fin, Vector.set_getElem_self]

/-- DISABLED with an empty ring, unless the channel is there already. -/
theorem disable_eq_rewriteChannel :
    State.disable = rewriteChannel (fun c => if c.state = .disabled then c else c.rested .disabled)
      (fun c r => if c.state = .disabled then r else r.emptied) := by
  funext s n
  unfold State.disable rewriteChannel
  split
  next there => simp only [there, if_true, setChannel_self, setRing_self]
  next other => simp only [other, if_false]

/-! ### The rule (R103) -/

theorem channelSetBad_eq_false (set : Byte) (named : set ≠ 0) (existing : set &&& 0xC0 = 0) : channelSetBad set = false :=
  decide_eq_false (not_or.mpr ⟨named, fun high => high existing⟩)

theorem firstPending_eq_none (c : Channel) (h : ∀ e : Exc, c.sticky.get e = true → c.mask.get e = true) :
    c.firstPending = none := by
  refine List.find?_eq_none.mpr fun e _ => ?_
  cases flag : c.sticky.get e with
  | false => simp
  | true => simp [h e flag]

/-- A set that names channels, none of which refuses: the action on each. -/
theorem channelControl_done (refusal : Channel → Option Result) (act : State → Fin 6 → State) (set : Byte) (o : Origin)
    (s : State) (named : set ≠ 0) (existing : set &&& 0xC0 = 0)
    (taken : ∀ n : Fin 6, set.getLsbD n.val = true → refusal s.chn[n] = none) :
    channelControl refusal act set o s = doneWith ((selectedChannels set).foldl act s) := by
  have free : firstRefusal s refusal set = none := by
    refine List.findSome?_eq_none_iff.mpr fun n selected => ?_
    rw [taken n ((mem_selectedChannels set n).mp selected)]
    rfl
  simp only [channelControl, channelSetBad_eq_false set named existing, Bool.false_eq_true, if_false, free]

theorem enableRefusal_eq_none (c : Channel) (state : c.state = .disabled) (clear : c.firstPending = none) :
    enableRefusal c = none := by
  simp [enableRefusal, state, clear]

theorem clearFaultRefusal_eq_none (c : Channel) (state : c.state = .fault) (clear : c.firstPending = none) :
    clearFaultRefusal c = none := by
  simp [clearFaultRefusal, state, clear]

end Sys2Proof.Machine.Setpoints

open Sys2Proof.Machine.Setpoints

/-- Settles O19: no selected channel refuses, and the fold of the action over the set is one update of the set. -/
theorem channelControlMovesTheSelectedChannels : Obligations.ChannelControlMovesTheSelectedChannels := by
  intro set s high named existing armed disabled
  have arm : (selectedChannels set).foldl State.arm s = armed := by
    rw [arm_eq_rewriteChannel, foldl_selectedChannels]
    rfl
  have disable : (selectedChannels set).foldl State.disable s = disabled := by
    rw [disable_eq_rewriteChannel, foldl_selectedChannels]
    exact rewriteSet_unless _ _ _ _ s
  have enabled (o : Origin) (h : ∀ n : Fin 6, set.getLsbD n.val = true → s.chn[n].state = .disabled ∧
      ∀ e : Exc, s.chn[n].sticky.get e = true → s.chn[n].mask.get e = true) :
      enableChannels set o s = doneWith armed :=
    arm ▸ channelControl_done enableRefusal State.arm set o s named existing fun n selected =>
      enableRefusal_eq_none _ (h n selected).1 (firstPending_eq_none _ (h n selected).2)
  have cleared (o : Origin) (h : ∀ n : Fin 6, set.getLsbD n.val = true → s.chn[n].state = .fault ∧
      ∀ e : Exc, s.chn[n].sticky.get e = true → s.chn[n].mask.get e = true) :
      clearFaultChannels set o s = doneWith armed :=
    arm ▸ channelControl_done clearFaultRefusal State.arm set o s named existing fun n selected =>
      clearFaultRefusal_eq_none _ (h n selected).1 (firstPending_eq_none _ (h n selected).2)
  have rested (o : Origin) : disableChannels set o s = doneWith disabled :=
    disable ▸ channelControl_done (fun _ => none) State.disable set o s named existing fun _ _ => rfl
  refine ⟨fun h => ⟨?_, ?_⟩, fun h => ⟨?_, ?_⟩, ?_, ?_⟩
  · exact event_held_done true (enableChannels set) s high (enabled _ h)
  · exact event_broadcast_done (enableChannels set) s high (enabled _ h)
  · exact event_held_done true (clearFaultChannels set) s high (cleared _ h)
  · exact event_broadcast_done (clearFaultChannels set) s high (cleared _ h)
  · exact event_held_done true (disableChannels set) s high (rested _)
  · exact event_broadcast_done (disableChannels set) s high (rested _)
end

section
/-! PROOFS. Writes of the ring settings and of the exception mask: the tests in their order, and the field replaced (R99, R110). -/

open Sys2Proof Sys2Proof.Machine Sys2Proof.Machine.Setpoints

namespace Sys2Proof.Machine.Setpoints

/-! ### Reserved bits (R182) -/

/-- The bits from a place on are clear just when the value is below the weight of that place. -/
theorem and_highBits_eq_zero_iff (v : Word) (k : Nat) : v &&& (BitVec.allOnes 32 <<< k) = 0 ↔ v.toNat < 2 ^ k := by
  have le : v.toNat / 2 ^ k * 2 ^ k ≤ v.toNat := Nat.div_mul_le_self _ _
  rw [← BitVec.shiftLeft_ushiftRight, ← BitVec.toNat_inj, BitVec.toNat_shiftLeft, BitVec.toNat_ushiftRight,
    Nat.shiftLeft_eq, Nat.shiftRight_eq_div_pow, Nat.mod_eq_of_lt (Nat.lt_of_le_of_lt le v.isLt)]
  show v.toNat / 2 ^ k * 2 ^ k = 0 ↔ v.toNat < 2 ^ k
  have weight : 2 ^ k ≠ 0 := Nat.ne_of_gt (Nat.two_pow_pos k)
  rw [Nat.mul_eq_zero, or_iff_left weight, Nat.div_eq_zero_iff, or_iff_right weight]

theorem reserved_byte_iff (v : Word) : v &&& 0xFFFFFF00 ≠ 0 ↔ 256 ≤ v.toNat :=
  (not_congr (and_highBits_eq_zero_iff v 8)).trans Nat.not_lt

theorem reserved_nibble_iff (v : Word) : v &&& 0xFFFFFFF0 ≠ 0 ↔ 16 ≤ v.toNat :=
  (not_congr (and_highBits_eq_zero_iff v 4)).trans Nat.not_lt

/-! ### The rules (R99, R110) -/

section
variable (n : Fin 6) (v : Word) (o : Origin) (s : State)

theorem writeRingMode_eq : writeRingMode n v o s =
    if 256 ≤ v.toNat then refuse .reservedField s
    else if 2 ≤ v.toNat then refuse .badArgument s
    else if s.chn[n].state ≠ .disabled then refuse .wrongState s
    else doneWith (s.setRing n { s.rings[n] with mode := if v.toNat = 0 then .queued else .latest }) := by
  have zero : v = 0 ↔ v.toNat = 0 := BitVec.toNat_inj.symm
  simp only [writeRingMode, reserved_byte_iff, zero]
  rfl

theorem writeRingDepth_eq : writeRingDepth n v o s =
    if 256 ≤ v.toNat then refuse .reservedField s
    else if v.toNat < 1 ∨ 8 < v.toNat then refuse .badArgument s
    else if s.chn[n].state ≠ .disabled then refuse .wrongState s
    else doneWith (s.setRing n { s.rings[n] with depth := v.toNat }) := by
  simp only [writeRingDepth, reserved_byte_iff]

theorem writeExceptionMask_eq : writeExceptionMask n v o s =
    if 16 ≤ v.toNat then refuse .reservedField s
    else doneWith (s.setChannel n { s.chn[n] with mask := .ofBits v }) := by
  simp only [writeExceptionMask, reserved_nibble_iff]

end

/-! ### The rows: a write of a ring or a mask makes no edge -/

section
variable (rule : Rule) (s : State) (n : Fin 6) (high : s.released)
include high

theorem event_held_setRing (r : Ring) (h : rule .command s = doneWith (s.setRing n r)) :
    event (carried .held false rule) s = .next ((s.setRing n r).answered .done) := by
  rw [event_held_done false rule s high h]
  exact congrArg _ (settleEdges_of_blocks s ((s.setRing n r).answered .done) rfl rfl rfl rfl)

theorem event_held_setMask (mask : ExcSet)
    (h : rule .command s = doneWith (s.setChannel n { s.chn[n] with mask := mask })) :
    event (carried .held false rule) s = .next ((s.setChannel n { s.chn[n] with mask := mask }).answered .done) := by
  have duty (m : Fin 6) : (s.setChannel n { s.chn[n] with mask := mask }).chn[m].duty = s.chn[m].duty := by
    rw [State.setChannel_get]
    split
    next same => rw [same]
    next => rfl
  rw [event_held_done false rule s high h]
  exact congrArg _ (settleEdges_of_same s ((s.setChannel n { s.chn[n] with mask := mask }).answered .done) fun m =>
    State.gated_congr m rfl (duty m) rfl fun _ => rfl)

end

end Sys2Proof.Machine.Setpoints

/-- Settles O27: each range of the value and each state takes one branch of its rule. -/
theorem ringAndExceptionMaskWrites : Obligations.RingAndExceptionMaskWrites := by
  intro s n value high
  have refused (rule : Rule) (result : Result) (h : rule .command s = refuse result s) :
      event (carried .held false rule) s = .next (s.answered result) := event_held_refused false rule s high h
  refine ⟨fun large => ⟨?_, ?_⟩, fun low large => ?_, fun bad => ?_, fun other => ⟨fun small => ?_, fun low small => ?_⟩,
    fun disabled => ⟨fun small => ?_, fun low small => ?_⟩, fun large => ?_, fun small => ?_⟩
  · refine refused (writeRingMode n value) _ ?_
    rw [writeRingMode_eq, if_pos large]
  · refine refused (writeRingDepth n value) _ ?_
    rw [writeRingDepth_eq, if_pos large]
  · refine refused (writeRingMode n value) _ ?_
    rw [writeRingMode_eq, if_neg (by omega), if_pos low]
  · refine refused (writeRingDepth n value) _ ?_
    rw [writeRingDepth_eq, if_neg (by omega), if_pos (by omega)]
  · refine refused (writeRingMode n value) _ ?_
    rw [writeRingMode_eq, if_neg (by omega), if_neg (by omega), if_pos other]
  · refine refused (writeRingDepth n value) _ ?_
    rw [writeRingDepth_eq, if_neg (by omega), if_neg (by omega), if_pos other]
  · refine event_held_setRing (writeRingMode n value) s n high _ ?_
    rw [writeRingMode_eq, if_neg (by omega), if_neg (by omega), if_neg (fun other => other disabled)]
  · refine event_held_setRing (writeRingDepth n value) s n high _ ?_
    rw [writeRingDepth_eq, if_neg (by omega), if_neg (by omega), if_neg (fun other => other disabled)]
  · refine refused (writeExceptionMask n value) _ ?_
    rw [writeExceptionMask_eq, if_pos large]
  · refine event_held_setMask (writeExceptionMask n value) s n high (.ofBits value) ?_
    rw [writeExceptionMask_eq, if_neg (Nat.not_le.mpr small)]
end

section
/-! PROOFS. The boundary of one channel, each row of the tables of R119 to R121, and what it does to the attention flags (R107). -/

open Sys2Proof Sys2Proof.Machine Sys2Proof.Machine.Setpoints

namespace Sys2Proof.Machine.Timebases

/-! ### The application of a duty (R121) -/

/-- A candidate is clamped just when it lies outside 0 to P. -/
theorem clampDuty_ne_iff (candidate : Int) (period : Nat) :
    (clampDuty candidate period : Int) ≠ candidate ↔ candidate < 0 ∨ period < candidate := by
  unfold clampDuty
  split
  · omega
  · split <;> omega

theorem applied_eq (c : Channel) (candidate : Int) (code : Code) (period : Nat) :
    c.applied candidate code period = { c with
      state := .running
      duty := if candidate < 0 then 0 else if period < candidate then period else candidate.toNat
      code := code
      saturated := decide (candidate < 0 ∨ period < candidate) } := by
  simp only [Channel.applied, clampDuty_ne_iff]
  rfl

/-- The duty and code that stand, applied again in RUNNING. -/
theorem applied_again (c : Channel) (period : Nat) (running : c.state = .running) :
    c.applied c.duty c.code period = { c with
      duty := min c.duty period, saturated := decide (period < c.duty) } := by
  have capped : ((min c.duty period : Nat) : Int) ≠ c.duty ↔ period < c.duty := by omega
  simp only [Channel.applied, clampDuty_natCast, capped, ← running]

/-! ### A pop and an empty ring (R93, R94, R120) -/

section
variable (s : State) (n : Fin 6) (period : Nat)

theorem popApply_slot (slot : Slot) (rest : List Slot) (slots : s.rings[n].slots = slot :: rest) :
    s.popApply n period = (s.setRing n { s.rings[n] with slots := rest }).setChannel n
      (s.chn[n].applied (slot.duty.getD s.chn[n].duty) slot.code period) := by
  simp only [State.popApply, slots]

variable (running : s.chn[n].state = .running) (empty : s.rings[n].slots = [])
include running empty

/-- STALE masked: the flag is set and the duty repeated. -/
theorem popApply_repeated (masked : s.chn[n].mask.stale = true) :
    s.popApply n period = (s.raise n .stale).setChannel n
      (Channel.applied { s.chn[n] with sticky := s.chn[n].sticky.insert .stale } s.chn[n].duty s.chn[n].code period) := by
  simp only [State.popApply, empty, running, masked, if_true, (s.raise_get n .stale).1]

/-- STALE unmasked: the flag is set and the channel enters FAULT. -/
theorem popApply_stale (unmasked : s.chn[n].mask.stale = false) :
    s.popApply n period = (s.raise n .stale).enterFault n .stale := by
  simp only [State.popApply, empty, running, unmasked, if_true, Bool.false_eq_true, if_false]

end

/-! ### The rows of the boundary (R119, R120) -/

section
variable (s : State) (n : Fin 6) (period : Nat)

/-- In DISABLED and FAULT a boundary takes the dead time alone. -/
theorem channelBoundary_rest (rests : ¬(s.chn[n].state = .armed ∨ s.chn[n].state = .running)) :
    s.channelBoundary period n = s.takeDeadTime n := by
  have state : (s.takeDeadTime n).chn[n].state = s.chn[n].state := by rw [takeDeadTime_get]
  simp only [State.channelBoundary, state, if_neg rests]

variable (running : s.chn[n].state = .running) (clear : s.chn[n].firstPending = none) (empty : s.rings[n].slots = [])
include running clear empty

theorem channelBoundary_repeated (masked : s.chn[n].mask.stale = true) :
    s.channelBoundary period n = ((s.takeDeadTime n).raise n .stale).setChannel n
      (Channel.applied { s.chn[n] with
        deadTime := s.out[n].stagedDeadTime, sticky := { s.chn[n].sticky with stale := true } }
        s.chn[n].duty s.chn[n].code period) := by
  have taken := takeDeadTime_get s n
  rw [channelBoundary_pop s n period (.inr running) clear,
    popApply_repeated (s.takeDeadTime n) n period (by rw [taken]; exact running) empty (by rw [taken]; exact masked), taken]
  rfl

theorem channelBoundary_stale (unmasked : s.chn[n].mask.stale = false) :
    s.channelBoundary period n = ((s.takeDeadTime n).raise n .stale).enterFault n .stale := by
  have taken := takeDeadTime_get s n
  rw [channelBoundary_pop s n period (.inr running) clear,
    popApply_stale (s.takeDeadTime n) n period (by rw [taken]; exact running) empty (by rw [taken]; exact unmasked)]

end

/-- The boundary of one channel is a row of the tables. -/
theorem channelBoundary_outcome (s : State) (n : Fin 6) (period : Nat) :
    BoundaryOutcome s (s.channelBoundary period n) n period := by
  have taken := takeDeadTime_get s n
  refine ⟨fun rests => ?_, fun e takes pending => ?_, fun slot rest takes clear slots => ?_, fun armed clear empty => ?_,
    fun running clear empty masked => ?_, fun running clear empty unmasked => ?_⟩
  · rw [channelBoundary_rest s n period (by rcases rests with rests | rests <;> simp [-Fin.getElem_fin, rests])]
    exact ⟨taken, rfl⟩
  · rw [channelBoundary_pending s n period takes e pending]
    obtain ⟨channel, ring⟩ := (s.takeDeadTime n).enterFault_get n e
    rw [channel, ring, taken]
    exact ⟨rfl, rfl⟩
  · obtain ⟨channel, ring⟩ := channelBoundary_slot s n period takes clear slot rest slots
    exact ⟨ring, channel.trans (applied_eq ..)⟩
  · have waiting : Waiting s n := ⟨armed, clear, empty⟩
    rw [waiting.channelBoundary_eq period]
    exact ⟨taken, rfl⟩
  · rw [channelBoundary_repeated s n period running clear empty masked]
    refine ⟨rfl, ?_⟩
    rw [State.setChannel_get, if_pos rfl]
    exact applied_again { s.chn[n] with
      deadTime := s.out[n].stagedDeadTime, sticky := { s.chn[n].sticky with stale := true } } period running
  · rw [channelBoundary_stale s n period running clear empty unmasked]
    obtain ⟨channel, ring⟩ := ((s.takeDeadTime n).raise n .stale).enterFault_get n .stale
    rw [channel, ring, ((s.takeDeadTime n).raise_get n .stale).1, taken]
    refine ⟨?_, rfl⟩
    show Ring.emptied s.rings[n] = s.rings[n]
    rw [Ring.emptied, ← empty]

/-! ### The attention flag of an entry into FAULT (R107, R173) -/

/-- Channel `n` enters FAULT and its flag is set, or neither. -/
def FlagsTheFault (s u : State) (n : Fin 6) : Prop :=
  u.mge.flags = if s.chn[n].state ≠ .fault ∧ u.chn[n].state = .fault then s.mge.flags ||| (1#13 <<< n.val) else s.mge.flags

theorem flagsTheFault_of_enterFault (s v : State) (n : Fin 6) (cause : Exc) (flags : v.mge.flags = s.mge.flags)
    (other : s.chn[n].state ≠ .fault) : FlagsTheFault s (v.enterFault n cause) n := by
  have state : (v.enterFault n cause).chn[n].state = .fault := by rw [(v.enterFault_get n cause).1]; rfl
  rw [FlagsTheFault, if_pos ⟨other, state⟩, ← flags]
  rfl

theorem flagsTheFault_of_keeps (s u : State) (n : Fin 6) (flags : u.mge.flags = s.mge.flags)
    (keeps : u.chn[n].state = .fault → s.chn[n].state = .fault) : FlagsTheFault s u n := by
  rw [FlagsTheFault, if_neg (fun entered => entered.1 (keeps entered.2)), flags]

theorem channelBoundary_flags (s : State) (n : Fin 6) (period : Nat) :
    FlagsTheFault s (s.channelBoundary period n) n := by
  have dead : FlagsTheFault s (s.takeDeadTime n) n :=
    flagsTheFault_of_keeps s _ n rfl fun fault => by rw [takeDeadTime_get] at fault; exact fault
  by_cases takes : s.chn[n].state = .armed ∨ s.chn[n].state = .running
  case neg => rw [channelBoundary_rest s n period takes]; exact dead
  have other : s.chn[n].state ≠ .fault := by rcases takes with takes | takes <;> rw [takes] <;> decide
  cases first : s.chn[n].firstPending with
  | some e =>
    rw [channelBoundary_pending s n period takes e first]
    exact flagsTheFault_of_enterFault s _ n e rfl other
  | none =>
    cases slots : s.rings[n].slots with
    | cons slot rest =>
      have head : (s.takeDeadTime n).rings[n].slots = slot :: rest := slots
      rw [channelBoundary_pop s n period takes first, popApply_slot _ n period slot rest head]
      refine flagsTheFault_of_keeps s _ n rfl fun fault => ?_
      rw [State.setChannel_get, if_pos rfl] at fault
      exact nomatch fault
    | nil =>
      rcases takes with armed | running
      · have waiting : Waiting s n := ⟨armed, first, slots⟩
        rw [waiting.channelBoundary_eq period]
        exact dead
      · cases stale : s.chn[n].mask.stale with
        | true =>
          rw [channelBoundary_repeated s n period running first slots stale]
          refine flagsTheFault_of_keeps s _ n rfl fun fault => ?_
          rw [State.setChannel_get, if_pos rfl] at fault
          exact nomatch fault
        | false =>
          rw [channelBoundary_stale s n period running first slots stale]
          exact flagsTheFault_of_enterFault s _ n .stale rfl other

end Sys2Proof.Machine.Timebases
end

section
/-! PROOFS. The work of boundaries as a whole (R118): what one step of it leaves, how steps on different timebases and channels
compose, and the work of one timebase. -/

open Sys2Proof Sys2Proof.Machine

namespace Sys2Proof.Machine.Timebases

/-! ### Boundary work on some timebases and some channels -/

/-- `BoundaryWork` with the channels selected apart from the timebases, so that it speaks of a part of a boundary too. -/
structure PartWork (s u : State) (ts : Fin 2 → Bool) (cs : Fin 6 → Bool) : Prop where
  started : ∀ t : Fin 2, ts t = true →
    u.tb[t] = { s.tb[t] with state := .running, period := s.tb[t].staged, counter := 0 }
  others : ∀ t : Fin 2, ts t = false → u.tb[t] = s.tb[t]
  channels : ∀ n : Fin 6, cs n = true → BoundaryOutcome s u n s.tb[timebaseOf n].staged
  untouched : ∀ n : Fin 6, cs n = false → u.chn[n] = s.chn[n] ∧ u.rings[n] = s.rings[n] ∧ u.out[n] = s.out[n]
  flags : ∀ i, i < 13 → u.mge.flags.getLsbD i = (s.mge.flags.getLsbD i || faultedBetween s u i)
  mge : u.mge = { s.mge with flags := u.mge.flags }
  frame : u.lrx = s.lrx ∧ u.fwd = s.fwd ∧ u.map = s.map ∧ u.tiu = s.tiu ∧ u.lch = s.lch ∧ u.pins = s.pins ∧ u.free = s.free
    ∧ u.pending = s.pending

theorem PartWork.toBoundaryWork {s u : State} {sel : Fin 2 → Bool} (h : PartWork s u sel (fun n => sel (timebaseOf n))) :
    BoundaryWork s u sel := ⟨h.started, h.others, h.channels, h.untouched, h.flags, h.mge, h.frame⟩

/-- An outcome speaks of the records of its channel alone. -/
theorem outcome_congr {s u s' u' : State} {n : Fin 6} {period : Nat} (h : BoundaryOutcome s u n period)
    (before : s'.chn[n] = s.chn[n] ∧ s'.rings[n] = s.rings[n] ∧ s'.out[n] = s.out[n])
    (after : u'.chn[n] = u.chn[n] ∧ u'.rings[n] = u.rings[n]) : BoundaryOutcome s' u' n period := by
  obtain ⟨chn, ring, out⟩ := before
  obtain ⟨chn', ring'⟩ := after
  obtain ⟨resting, pending, popped, waiting, repeated, stale⟩ := h
  constructor <;> rw [chn', ring'] <;> simpa only [chn, ring, out]

/-! ### Entries into FAULT (R107) -/

theorem faultedBetween_iff (s u : State) (i : Nat) : faultedBetween s u i = true ↔
    ∃ n : Fin 6, n.val = i ∧ s.chn[n].state ≠ .fault ∧ u.chn[n].state = .fault := decide_eq_true_iff

theorem faultedBetween_of_same {s u : State} (same : ∀ n : Fin 6, u.chn[n].state = s.chn[n].state) (i : Nat) :
    faultedBetween s u i = false := by
  rw [Bool.eq_false_iff, ne_eq, faultedBetween_iff]
  rintro ⟨n, -, other, fault⟩
  exact other (same n ▸ fault)

/-- When no channel changes twice, the entries of the two halves are the entries of the whole. -/
theorem faultedBetween_trans {s u v : State} (once : ∀ n : Fin 6, u.chn[n] = s.chn[n] ∨ v.chn[n] = u.chn[n]) (i : Nat) :
    faultedBetween s v i = (faultedBetween s u i || faultedBetween u v i) := by
  rw [Bool.eq_iff_iff, Bool.or_eq_true, faultedBetween_iff, faultedBetween_iff, faultedBetween_iff]
  constructor
  · rintro ⟨n, index, other, fault⟩
    rcases once n with same | same
    · exact .inr ⟨n, index, same ▸ other, fault⟩
    · exact .inl ⟨n, index, other, same ▸ fault⟩
  · rintro (⟨n, index, other, fault⟩ | ⟨n, index, other, fault⟩)
    · rcases once n with same | same
      · exact absurd (same ▸ fault) other
      · exact ⟨n, index, other, same.symm ▸ fault⟩
    · rcases once n with same | same
      · exact ⟨n, index, same ▸ other, fault⟩
      · exact absurd (same ▸ fault) other

/-- A channel that flags its own fault, the others as they were, flags every fault. -/
theorem flags_of_flagsTheFault {s u : State} {n : Fin 6} (others : ∀ m : Fin 6, m ≠ n → u.chn[m] = s.chn[m])
    (own : FlagsTheFault s u n) (i : Nat) :
    u.mge.flags.getLsbD i = (s.mge.flags.getLsbD i || faultedBetween s u i) := by
  have entered : faultedBetween s u i =
      decide (n.val = i ∧ s.chn[n].state ≠ .fault ∧ u.chn[n].state = .fault) := by
    rw [Bool.eq_iff_iff, faultedBetween_iff, decide_eq_true_iff]
    constructor
    · rintro ⟨m, index, other, fault⟩
      by_cases same : m = n
      · subst same; exact ⟨index, other, fault⟩
      · exact absurd (others m same ▸ fault) other
    · exact fun h => ⟨n, h⟩
  have bit : (1#13 <<< n.val).getLsbD i = decide (n.val = i) := by
    have inside : n.val < 13 := Nat.lt_trans n.isLt (by decide)
    rw [← BitVec.twoPow_eq, BitVec.getLsbD_twoPow, decide_eq_true inside, Bool.true_and]
  rw [own, entered]
  split
  next h => rw [BitVec.getLsbD_or, bit, decide_eq_decide.mpr (and_iff_left h)]
  next h => rw [decide_eq_false (fun all => h all.2), Bool.or_false]

/-! ### Composition -/

theorem PartWork.refl (s : State) : PartWork s s (fun _ => false) (fun _ => false) where
  started _ h := nomatch h
  others _ _ := rfl
  channels _ h := nomatch h
  untouched _ _ := ⟨rfl, rfl, rfl⟩
  flags i _ := by rw [faultedBetween_of_same (fun _ => rfl), Bool.or_false]
  mge := rfl
  frame := ⟨rfl, rfl, rfl, rfl, rfl, rfl, rfl, rfl⟩

section
variable {s u v : State} {ts ts' : Fin 2 → Bool} {cs cs' : Fin 6 → Bool}

/-- A staged period stands through boundary work. -/
theorem PartWork.staged (h : PartWork s u ts cs) (t : Fin 2) : u.tb[t].staged = s.tb[t].staged := by
  cases selected : ts t with
  | true => rw [h.started t selected]
  | false => rw [h.others t selected]

/-- Work on some timebases and channels, then on others, is work on all of them. -/
theorem PartWork.trans (h : PartWork s u ts cs) (k : PartWork u v ts' cs') (apartT : ∀ t, ts t = true → ts' t = false)
    (apartC : ∀ n, cs n = true → cs' n = false) :
    PartWork s v (fun t => ts t || ts' t) (fun n => cs n || cs' n) where
  started t either := by
    cases first : ts t with
    | true => rw [k.others t (apartT t first), h.started t first]
    | false =>
      have second : ts' t = true := by simpa [first] using either
      rw [k.started t second, h.others t first]
  others t neither := by
    obtain ⟨first, second⟩ := Bool.or_eq_false_iff.mp neither
    rw [k.others t second, h.others t first]
  channels n either := by
    cases first : cs n with
    | true =>
      obtain ⟨chn, ring, -⟩ := k.untouched n (apartC n first)
      exact outcome_congr (h.channels n first) ⟨rfl, rfl, rfl⟩ ⟨chn, ring⟩
    | false =>
      have second : cs' n = true := by simpa [first] using either
      obtain ⟨chn, ring, out⟩ := h.untouched n first
      rw [← h.staged]
      exact outcome_congr (k.channels n second) ⟨chn.symm, ring.symm, out.symm⟩ ⟨rfl, rfl⟩
  untouched n neither := by
    obtain ⟨first, second⟩ := Bool.or_eq_false_iff.mp neither
    obtain ⟨chn, ring, out⟩ := h.untouched n first
    obtain ⟨chn', ring', out'⟩ := k.untouched n second
    exact ⟨chn'.trans chn, ring'.trans ring, out'.trans out⟩
  flags i small := by
    have once (n : Fin 6) : u.chn[n] = s.chn[n] ∨ v.chn[n] = u.chn[n] := by
      cases first : cs n with
      | true => exact .inr (k.untouched n (apartC n first)).1
      | false => exact .inl (h.untouched n first).1
    rw [k.flags i small, h.flags i small, faultedBetween_trans once, Bool.or_assoc]
  mge := by rw [k.mge, h.mge]
  frame := by
    obtain ⟨lrx, fwd, map, tiu, lch, pins, free, pending⟩ := h.frame
    obtain ⟨lrx', fwd', map', tiu', lch', pins', free', pending'⟩ := k.frame
    exact ⟨lrx'.trans lrx, fwd'.trans fwd, map'.trans map, tiu'.trans tiu, lch'.trans lch, pins'.trans pins,
      free'.trans free, pending'.trans pending⟩

/-- The outputs of the selected channels are left open. -/
theorem PartWork.withOut (h : PartWork s u ts cs) (out : Vector Output 6)
    (same : ∀ n : Fin 6, cs n = false → out[n] = u.out[n]) : PartWork s { u with out := out } ts cs where
  started := h.started
  others := h.others
  channels n selected := outcome_congr (h.channels n selected) ⟨rfl, rfl, rfl⟩ ⟨rfl, rfl⟩
  untouched n other := by
    obtain ⟨chn, ring, before⟩ := h.untouched n other
    exact ⟨chn, ring, (same n other).trans before⟩
  flags := h.flags
  mge := h.mge
  frame := h.frame

end

/-! ### The parts of a boundary -/

/-- The timebase record of a boundary (R118); START sets it RUNNING first (R115). -/
def startedState (s : State) (t : Fin 2) : State :=
  s.setTimebase t { s.tb[t] with state := .running, period := s.tb[t].staged, counter := 0 }

theorem startedState_work (s : State) (t : Fin 2) :
    PartWork s (startedState s t) (fun r => r == t) (fun _ => false) where
  started r same := by
    obtain rfl : r = t := eq_of_beq same
    rw [startedState, State.setTimebase_get, if_pos rfl]
  others r other := by rw [startedState, State.setTimebase_get, if_neg (fun same => by simp [same] at other)]
  channels _ h := nomatch h
  untouched _ _ := ⟨rfl, rfl, rfl⟩
  flags i _ := by
    rw [faultedBetween_of_same (s := s) (u := startedState s t) (fun _ => rfl), Bool.or_false]
    rfl
  mge := rfl
  frame := ⟨rfl, rfl, rfl, rfl, rfl, rfl, rfl, rfl⟩

theorem channelBoundary_part (s : State) (n : Fin 6) (period : Nat) (staged : s.tb[timebaseOf n].staged = period) :
    PartWork s (s.channelBoundary period n) (fun _ => false) (fun m => m == n) := by
  have work := s.channelBoundary_work period n
  obtain ⟨lrx, fwd, map, tb, out, tiu, lch⟩ := work.blocks
  obtain ⟨pins, free, pending⟩ := work.rest
  refine ⟨(fun _ h => nomatch h), fun t _ => by rw [tb], fun m same => ?_, fun m other => ?_, ?_, work.mge,
    ⟨lrx, fwd, map, tiu, lch, pins, free, pending⟩⟩
  · obtain rfl : m = n := eq_of_beq same
    rw [staged]
    exact channelBoundary_outcome s m period
  · obtain ⟨chn, ring⟩ := work.others m (ne_of_beq_false other)
    exact ⟨chn, ring, by rw [out]⟩
  · exact fun i _ => flags_of_flagsTheFault (fun m other => (work.others m other).1) (channelBoundary_flags s n period) i

theorem foldl_channelBoundary_part (l : List (Fin 6)) (s : State) (period : Nat) (distinct : l.Nodup)
    (staged : ∀ n ∈ l, s.tb[timebaseOf n].staged = period) :
    PartWork s (l.foldl (fun u n => u.channelBoundary period n) s) (fun _ => false) (fun n => l.contains n) := by
  induction l generalizing s with
  | nil => exact .refl s
  | cons n l ih =>
    obtain ⟨outside, rest⟩ := List.nodup_cons.mp distinct
    have first := channelBoundary_part s n period (staged n List.mem_cons_self)
    have later := ih (s.channelBoundary period n) rest fun m listed =>
      (first.staged (timebaseOf m)).trans (staged m (List.mem_cons_of_mem n listed))
    refine first.trans later (fun _ h => nomatch h) (fun m same => ?_)
    obtain rfl : m = n := eq_of_beq same
    simpa using outside

theorem channelsOf_contains (t : Fin 2) (n : Fin 6) : (channelsOf t).contains n = (timebaseOf n == t) := by
  revert t n; decide

/-- The boundary of a timebase that is set RUNNING, or was so before. -/
def bounded (s : State) (t : Fin 2) : State :=
  (channelsOf t).foldl (fun u n => u.channelBoundary s.tb[t].staged n) (startedState s t)

theorem bounded_work (s : State) (t : Fin 2) :
    PartWork s (bounded s t) (fun r => r == t) (fun n => timebaseOf n == t) := by
  have distinct : (channelsOf t).Nodup := by revert t; decide
  have started := startedState_work s t
  have staged : ∀ n ∈ channelsOf t, (startedState s t).tb[timebaseOf n].staged = s.tb[t].staged := by
    intro n listed
    have own : timebaseOf n = t := by
      rw [← List.contains_iff_mem, channelsOf_contains] at listed
      exact eq_of_beq listed
    rw [started.staged, own]
  have whole := started.trans (foldl_channelBoundary_part (channelsOf t) _ s.tb[t].staged distinct staged)
    (fun _ _ => rfl) (fun _ h => nomatch h)
  simpa only [bounded, Bool.or_false, Bool.false_or, channelsOf_contains] using whole

/-- A RUNNING timebase at its boundary (R118). -/
theorem boundary_of_running (s : State) (t : Fin 2) (running : s.tb[t].state = .running) : s.boundary t = bounded s t := by
  rw [State.boundary, bounded, startedState, ← running]

/-- The boundary that START makes (R115). -/
theorem boundary_of_start (s : State) (t : Fin 2) :
    State.boundary (s.setTimebase t { s.tb[t] with state := .running, counter := 0 }) t = bounded s t := by
  have record : (s.setTimebase t { s.tb[t] with state := .running, counter := 0 }).tb[t] =
      { s.tb[t] with state := .running, counter := 0 } := by rw [State.setTimebase_get, if_pos rfl]
  have twice (x y : Timebase) : (s.setTimebase t x).setTimebase t y = s.setTimebase t y := by
    simp only [State.setTimebase, Vector.set_set]
  simp only [State.boundary, record, twice]
  rfl

end Sys2Proof.Machine.Timebases
end

section
/-! PROOFS. A tick taken as an event: it settles its own edges, so the row is the tick; and the tick that is the boundary
(R114, R118, R128). -/

open Sys2Proof Sys2Proof.Machine

namespace Sys2Proof.Machine.Timebases

/-! ### The first pending exception (R110, R111) -/

theorem firstPending_eq (c : Channel) : c.firstPending =
    if c.sticky.invalid = true ∧ c.mask.invalid = false then some .invalid
    else if c.sticky.range = true ∧ c.mask.range = false then some .range
    else if c.sticky.overrun = true ∧ c.mask.overrun = false then some .overrun
    else if c.sticky.stale = true ∧ c.mask.stale = false then some .stale
    else none := by
  have test (a b : Bool) (x y : Option Exc) : (bif a && !b then x else y) = if a = true ∧ b = false then x else y := by
    cases a <;> cases b <;> rfl
  have search (p : Exc → Bool) (e : Exc) (l : List Exc) : (e :: l).find? p = bif p e then some e else l.find? p := by
    rw [List.find?_cons, cond_eq_ite]
    cases p e <;> rfl
  simp only [Channel.firstPending, search, List.find?_nil, test, ExcSet.get]

/-! ### Edges that are settled already (R128) -/

@[simp] theorem restartAges_twice (o : Output) : o.restartAges.restartAges = o.restartAges := rfl

/-- Where each channel with an edge stands restarted, nothing is left to settle. -/
theorem settleEdges_of_restarted (s u : State)
    (h : ∀ n : Fin 6, u.gated n = s.gated n ∨ u.out[n].restartAges = u.out[n]) : settleEdges s u = u := by
  have out : (Vector.ofFn fun n : Fin 6 => if s.gated n = u.gated n then u.out[n] else u.out[n].restartAges) = u.out := by
    ext i inside : 1
    rw [Vector.getElem_ofFn]
    rcases h ⟨i, inside⟩ with same | restarted
    · rw [if_pos same.symm]; rfl
    · rw [restarted, ite_self]; rfl
  rw [settleEdges, out]

/-- Boundary work elsewhere makes no edge. -/
theorem PartWork.gated {s u : State} {ts : Fin 2 → Bool} {cs : Fin 6 → Bool} (h : PartWork s u ts cs) (n : Fin 6)
    (timebase : ts (timebaseOf n) = false) (channel : cs n = false) : u.gated n = s.gated n := by
  obtain ⟨chn, -, out⟩ := h.untouched n channel
  obtain ⟨-, -, -, tiu, -⟩ := h.frame
  exact State.gated_congr n (by rw [h.others _ timebase]) (by rw [chn]) (by rw [out]) (fun k => by rw [tiu])

/-! ### The ages of a tick (R128) -/

theorem growAge_eq (a : Nat) : growAge a = min (a + 1) 255 := by
  unfold growAge; split <;> omega

theorem grow_eq (o : Output) (level : Bool) : o.grow level =
    if level then { o with ageHi := min (o.ageHi + 1) 255, ageLo := 0, afterTrip := false }
    else { o with ageHi := 0, ageLo := min (o.ageLo + 1) 255, afterTrip := false } := by
  simp only [Output.grow, growAge_eq]

/-- Ages bear on no gated level. -/
theorem tickAges_gated (t : Fin 2) (s u : State) (n : Fin 6) : (tickAges t s u).gated n = u.gated n := by
  refine State.gated_congr n rfl rfl ?_ fun _ => rfl
  rw [tickAges_out]
  split
  · rfl
  · split
    · rfl
    · rw [Output.grow_settings]

/-! ### The tick as an event -/

section
variable (s : State) (t : Fin 2)

theorem tick_of_stopped (stopped : s.tb[t].state = .stopped) : s.tick t = s := by
  rw [State.tick, if_neg (by rw [stopped]; decide)]

variable (running : s.tb[t].state = .running)
include running

/-- A tick inside the period. -/
theorem tick_inside (inside : s.tb[t].counter + 1 < s.tb[t].period) :
    s.tick t = tickAges t s (s.setTimebase t { s.tb[t] with counter := s.tb[t].counter + 1 }) := by
  rw [State.tick, if_pos running, State.countTick, if_pos inside]

/-- The tick from P - 1 is the boundary. -/
theorem tick_at_end (last : s.tb[t].period ≤ s.tb[t].counter + 1) : s.tick t = tickAges t s (bounded s t) := by
  rw [State.tick, if_pos running, State.countTick, if_neg (Nat.not_lt.mpr last), boundary_of_running s t running]

/-- A tick makes no edge at a channel of the other timebase. -/
theorem countTick_gated_of_other (n : Fin 6) (other : timebaseOf n ≠ t) : (s.countTick t).gated n = s.gated n := by
  rcases s.countTick_cases t with ⟨-, counted⟩ | ⟨-, boundary⟩
  · rw [counted]
    exact State.gated_congr n (by rw [State.setTimebase_get, if_neg other]) rfl rfl fun _ => rfl
  · rw [boundary, boundary_of_running s t running]
    exact (bounded_work s t).gated n (beq_false_of_ne other) (beq_false_of_ne other)

end

/-- A tick restarts the ages at each edge it makes. -/
theorem settleEdges_tick (s : State) (t : Fin 2) : settleEdges s (s.tick t) = s.tick t := by
  by_cases running : s.tb[t].state = .running
  case neg => rw [State.tick, if_neg running, settleEdges_self]
  rw [State.tick, if_pos running]
  refine settleEdges_of_restarted s _ fun n => ?_
  rw [tickAges_gated, tickAges_out]
  by_cases own : timebaseOf n = t
  · by_cases same : s.gated n = (s.countTick t).gated n
    · exact .inl same.symm
    · rw [if_neg (Classical.not_not.mpr own), if_pos (.inl same)]
      exact .inr (restartAges_twice _)
  · exact .inl (countTick_gated_of_other s t running n own)

theorem exec_timebaseTick (t : Fin 2) (s : State) (high : s.released) : exec (.timebaseTick t) s = .next (s.tick t) :=
  (event_high _ s high).trans (congrArg _ (settleEdges_tick s t))

/-- A row that names the tick at which something happens is that tick there and no effect elsewhere (logs 3, 5). -/
theorem event_tick_if (names : State → Bool) (t : Fin 2) (s : State) (high : s.released) :
    event (fun s => if names s then s.tick t else s) s = .next (if names s then s.tick t else s) := by
  rw [event_high _ s high]
  split
  · rw [settleEdges_tick]
  · rw [settleEdges_self]

theorem exec_periodBoundary (t : Fin 2) (s : State) (high : s.released) :
    exec (.periodBoundary t) s = .next (if s.atPeriodEnd t then s.tick t else s) :=
  event_tick_if (·.atPeriodEnd t) t s high

/-! ### The boundary (R118) -/

/-- A boundary leaves the outputs to the ages of its event. -/
theorem bounded_out (s : State) (t : Fin 2) : (bounded s t).out = s.out := by
  have work : ChannelsWork (startedState s t) (bounded s t) :=
    .foldl _ (fun u n => (u.channelBoundary_work s.tb[t].staged n).toChannelsWork) _ _
  obtain ⟨-, -, -, -, out, -⟩ := work.blocks
  exact out

theorem tick_at_end_work (s : State) (t : Fin 2) :
    BoundaryWork s (tickAges t s (bounded s t)) (fun r => decide (r = t)) := by
  refine PartWork.toBoundaryWork ((bounded_work s t).withOut (tickAges t s (bounded s t)).out fun n other => ?_)
  rw [tickAges_out, if_pos (ne_of_beq_false other)]

end Sys2Proof.Machine.Timebases

open Sys2Proof.Machine.Timebases

/-- Settles O17: the tick at the period end is the boundary with the ages of the tick, and settles its own edges. -/
theorem tickAtThePeriodEndIsTheBoundary : Obligations.TickAtThePeriodEndIsTheBoundary := by
  refine ⟨fun _ => ⟨rfl, rfl, rfl, rfl⟩, firstPending_eq, fun b s high => ⟨fun running last => ?_, fun elsewhere => ?_⟩⟩
  · have tick := tick_at_end s b running last
    refine ⟨tickAges b s (bounded s b), ?_, ?_, tick_at_end_work s b, fun n own => ?_⟩
    · rw [exec_timebaseTick b s high, tick]
    · rw [exec_periodBoundary b s high, State.atPeriodEnd, decide_eq_true ⟨running, last⟩, if_pos rfl, tick]
    · rw [tickAges_gated, tickAges_out, if_neg (Classical.not_not.mpr own), bounded_out]
      refine ⟨fun restarts => ?_, fun grows => ?_⟩
      · exact if_pos restarts
      · exact (if_neg grows).trans (grow_eq _ _)
  · rw [exec_periodBoundary b s high, if_neg]
    simp only [State.atPeriodEnd, decide_eq_true_eq]
    rintro ⟨running, last⟩
    rcases elsewhere with stopped | inside
    · exact nomatch running.symm.trans stopped
    · omega
end

section
/-! PROOFS. START as the boundaries of the selected timebases, STOP as one update of them (R115, R116, R128 (3)). -/

open Sys2Proof Sys2Proof.Machine Sys2Proof.Machine.Setpoints

namespace Sys2Proof.Machine.Timebases

/-! ### START (R115) -/

theorem restartAges_get (s : State) (n m : Fin 6) :
    (s.restartAges n).out[m] = if m = n then s.out[m].restartAges else s.out[m] := by
  rw [State.restartAges, State.setOutput_get]
  split
  next same => rw [same]
  next => rfl

/-- The ages of the listed channels restarted, a channel listed twice too. -/
theorem foldl_restartAges (l : List (Fin 6)) (s : State) : l.foldl State.restartAges s =
    { s with out := Vector.ofFn fun n : Fin 6 => if l.contains n then s.out[n].restartAges else s.out[n] } := by
  induction l generalizing s with
  | nil => simp only [List.foldl_nil, List.contains_nil, Bool.false_eq_true, if_false, Fin.getElem_fin, Vector.ofFn_getElem]
  | cons m l ih =>
    have step (n : Fin 6) : (if l.contains n then (s.restartAges m).out[n].restartAges else (s.restartAges m).out[n]) =
        if (m :: l).contains n then s.out[n].restartAges else s.out[n] := by
      rw [restartAges_get, List.contains_cons]
      by_cases same : n = m
      · simp [-Fin.getElem_fin, same]
      · simp [-Fin.getElem_fin, same]
    rw [List.foldl_cons, ih]
    simp only [step]
    rfl

/-- What START leaves of a set of timebases: their boundaries, and the ages of their channels restarted. -/
structure StartWork (s u : State) (ts : Fin 2 → Bool) : Prop where
  part : PartWork s u ts (fun n => ts (timebaseOf n))
  restarted : ∀ n : Fin 6, ts (timebaseOf n) = true → u.out[n] = s.out[n].restartAges

theorem startTimebase_work (s : State) (t : Fin 2) : StartWork s (s.startTimebase t) (fun r => r == t) := by
  have out (n : Fin 6) : (s.startTimebase t).out[n] =
      if timebaseOf n == t then s.out[n].restartAges else s.out[n] := by
    rw [State.startTimebase, boundary_of_start, foldl_restartAges]
    simp only [Fin.getElem_fin, Vector.getElem_ofFn, Fin.eta, channelsOf_contains, bounded_out]
  refine ⟨?_, fun n own => by rw [out, if_pos own]⟩
  have part := (bounded_work s t).withOut (s.startTimebase t).out fun n other => by
    rw [out, other, bounded_out]
    rfl
  have whole : { bounded s t with out := (s.startTimebase t).out } = s.startTimebase t := by
    rw [State.startTimebase, boundary_of_start, foldl_restartAges]
  rwa [whole] at part

theorem foldl_startTimebase_work (l : List (Fin 2)) (s : State) (distinct : l.Nodup) :
    StartWork s (l.foldl State.startTimebase s) (fun t => l.contains t) := by
  induction l generalizing s with
  | nil => exact ⟨.refl s, fun _ h => nomatch h⟩
  | cons t l ih =>
    obtain ⟨outside, rest⟩ := List.nodup_cons.mp distinct
    obtain ⟨first, restarted⟩ := startTimebase_work s t
    obtain ⟨later, restartedLater⟩ := ih (s.startTimebase t) rest
    have apart (r : Fin 2) (same : (r == t) = true) : l.contains r = false := by
      obtain rfl : r = t := eq_of_beq same
      simpa using outside
    refine ⟨first.trans later apart fun n => apart (timebaseOf n), fun n listed => ?_⟩
    rw [List.foldl_cons]
    cases own : timebaseOf n == t with
    | true =>
      obtain ⟨-, -, kept⟩ := later.untouched n (apart _ own)
      rw [kept, restarted n own]
    | false =>
      have among : l.contains (timebaseOf n) = true := by
        rw [List.contains_cons, own, Bool.false_or] at listed
        exact listed
      obtain ⟨-, -, kept⟩ := first.untouched n own
      rw [restartedLater n among, kept]

/-- START restarts the ages wherever it makes an edge. -/
theorem StartWork.settled {s u : State} {ts : Fin 2 → Bool} (h : StartWork s u ts) (n : Fin 6) :
    u.gated n = s.gated n ∨ u.out[n].restartAges = u.out[n] := by
  cases selected : ts (timebaseOf n) with
  | true => rw [h.restarted n selected]; exact .inr (restartAges_twice _)
  | false => exact .inl (h.part.gated n selected selected)

/-! ### Sets of timebases (R115 (1)) -/

theorem selectedTimebases_contains (set : Byte) (t : Fin 2) : (selectedTimebases set).contains t = set.getLsbD t.val := by
  have listed : t ∈ ([0, 1] : List (Fin 2)) := by revert t; decide
  rw [Bool.eq_iff_iff, List.contains_iff_mem, selectedTimebases, List.mem_filter]
  exact and_iff_right listed

theorem nodup_selectedTimebases (set : Byte) : (selectedTimebases set).Nodup :=
  List.Pairwise.filter _ (show ([0, 1] : List (Fin 2)).Nodup by decide)

theorem timebaseSetBad_eq_false (set : Byte) (named : set ≠ 0) (existing : set &&& 0xFC = 0) : timebaseSetBad set = false :=
  decide_eq_false (not_or.mpr ⟨named, fun high => high existing⟩)

theorem startTimebases_done (set : Byte) (o : Origin) (s : State) (named : set ≠ 0) (existing : set &&& 0xFC = 0)
    (stopped : ∀ t : Fin 2, set.getLsbD t.val = true → s.tb[t].state = .stopped) :
    startTimebases set o s = doneWith ((selectedTimebases set).foldl State.startTimebase s) := by
  have free : ((selectedTimebases set).find? fun t => s.tb[t].state = .running) = none := by
    refine List.find?_eq_none.mpr fun t listed => ?_
    rw [stopped t (by rw [← selectedTimebases_contains, List.contains_iff_mem]; exact listed)]
    decide
  simp only [startTimebases, timebaseSetBad_eq_false set named existing, Bool.false_eq_true, if_false, free]

theorem start_work (set : Byte) (s : State) :
    StartWork s ((selectedTimebases set).foldl State.startTimebase s) (fun t => set.getLsbD t.val) := by
  have work := foldl_startTimebase_work (selectedTimebases set) s (nodup_selectedTimebases set)
  simpa only [selectedTimebases_contains] using work

/-! ### STOP (R116) -/

theorem foldl_stopTimebase (l : List (Fin 2)) (s : State) : l.foldl State.stopTimebase s =
    { s with tb := Vector.ofFn fun t : Fin 2 => if l.contains t then { s.tb[t] with state := .stopped } else s.tb[t] } := by
  induction l generalizing s with
  | nil => simp only [List.foldl_nil, List.contains_nil, Bool.false_eq_true, if_false, Fin.getElem_fin, Vector.ofFn_getElem]
  | cons r l ih =>
    have step (t : Fin 2) : (if l.contains t then { (s.stopTimebase r).tb[t] with state := .stopped }
        else (s.stopTimebase r).tb[t]) = if (r :: l).contains t then { s.tb[t] with state := .stopped } else s.tb[t] := by
      rw [State.stopTimebase, State.setTimebase_get, List.contains_cons]
      by_cases same : t = r
      · simp [-Fin.getElem_fin, same]
      · simp [-Fin.getElem_fin, same]
    rw [List.foldl_cons, ih]
    simp only [step]
    rfl

theorem stopTimebases_done (set : Byte) (o : Origin) (s : State) (named : set ≠ 0) (existing : set &&& 0xFC = 0) :
    stopTimebases set o s = doneWith { s with
      tb := Vector.ofFn fun t : Fin 2 => if set.getLsbD t.val then { s.tb[t] with state := .stopped } else s.tb[t] } := by
  simp only [stopTimebases, timebaseSetBad_eq_false set named existing, Bool.false_eq_true, if_false, foldl_stopTimebase,
    selectedTimebases_contains]

end Sys2Proof.Machine.Timebases

open Sys2Proof.Machine.Timebases

/-- Settles O18: START folds boundaries of different timebases, each of which restarts its ages; STOP leaves the counters, and so
makes no edge. -/
theorem startMakesTheBoundariesAndStopFreezes : Obligations.StartMakesTheBoundariesAndStopFreezes := by
  refine ⟨fun set s high named existing stopped => ?_, ?_⟩
  · have work := start_work set s
    have done (o : Origin) := startTimebases_done set o s named existing stopped
    refine ⟨(selectedTimebases set).foldl State.startTimebase s, ?_, ?_, work.part.toBoundaryWork, work.restarted⟩
    · refine (event_broadcast_done (startTimebases set) s high (done .broadcast)).trans ?_
      rw [settleEdges_of_restarted s _ work.settled]
    · refine (event_held_done true (startTimebases set) s high (done .command)).trans ?_
      rw [settleEdges_of_restarted s (State.answered _ .done) work.settled]
  · intro set s high named existing u
    have done (o : Origin) : stopTimebases set o s = doneWith u := stopTimebases_done set o s named existing
    have same (n : Fin 6) : u.gated n = s.gated n := by
      refine State.gated_congr n ?_ rfl rfl fun _ => rfl
      simp only [u, Fin.getElem_fin, Vector.getElem_ofFn]
      split <;> rfl
    constructor
    · refine (event_held_done true (stopTimebases set) s high (done .command)).trans ?_
      rw [settleEdges_of_same s (u.answered .done) same]
    · refine (event_broadcast_done (stopTimebases set) s high (done .broadcast)).trans ?_
      rw [settleEdges_of_same s u same]
end

section
/-! PROOFS. A tick inside a period at one channel, and the rows DUTY_MATCH and DEAD_TIME_EXPIRY that name one (R114, R125, R129). -/

open Sys2Proof Sys2Proof.Machine

namespace Sys2Proof.Machine.Timebases

/-! ### The two rows and their conditions (logs 3, 5) -/

section
variable (n : Fin 6) (s : State)

theorem exec_dutyMatch (high : s.released) :
    exec (.dutyMatch n) s = .next (if s.atDuty n then s.tick (timebaseOf n) else s) :=
  event_tick_if (·.atDuty n) (timebaseOf n) s high

theorem exec_deadTimeExpiry (side : Side) (high : s.released) :
    exec (.deadTimeExpiry n side) s = .next (if s.atExpiry n side then s.tick (timebaseOf n) else s) :=
  event_tick_if (·.atExpiry n side) (timebaseOf n) s high

theorem atDuty_iff : s.atDuty n = true ↔ s.tb[timebaseOf n].state = .running ∧
    s.tb[timebaseOf n].counter + 1 < s.tb[timebaseOf n].period ∧ s.tb[timebaseOf n].counter + 1 = s.chn[n].duty :=
  decide_eq_true_iff

/-- The tick makes the output active with its age at the dead time. -/
theorem atExpiry_iff (side : Side) : s.atExpiry n side = true ↔
    s.logical n side = false ∧ (s.tick (timebaseOf n)).logical n side = true ∧
    (s.tick (timebaseOf n)).out[n].age side = (s.tick (timebaseOf n)).chn[n].deadTime := by
  simp only [State.atExpiry, Bool.and_eq_true, Bool.not_eq_true', decide_eq_true_eq, and_assoc]

theorem logical_hi_iff : s.logical n .hi = true ↔ s.gated n = true ∧ s.chn[n].deadTime ≤ s.out[n].ageHi := by
  rw [State.logical, Bool.and_eq_true]
  exact and_congr_right fun _ => decide_eq_true_iff

theorem logical_lo_iff : s.logical n .lo = true ↔ s.gated n = false ∧ s.chn[n].deadTime ≤ s.out[n].ageLo := by
  rw [State.logical, Bool.and_eq_true, Bool.not_eq_true']
  exact and_congr_right fun _ => decide_eq_true_iff

/-- An output at the gated level that is inactive is younger than the dead time. -/
theorem young_hi_of_idle (idle : s.logical n .hi = false) (gated : s.gated n = true) :
    s.out[n].ageHi < s.chn[n].deadTime :=
  Nat.not_le.mp fun old => Bool.eq_false_iff.mp idle ((logical_hi_iff n s).mpr ⟨gated, old⟩)

theorem young_lo_of_idle (idle : s.logical n .lo = false) (gated : s.gated n = false) :
    s.out[n].ageLo < s.chn[n].deadTime :=
  Nat.not_le.mp fun old => Bool.eq_false_iff.mp idle ((logical_lo_iff n s).mpr ⟨gated, old⟩)

theorem gated_iff : s.gated n = true ↔ s.tb[timebaseOf n].counter < s.chn[n].duty ∧ s.gateOpen n = true := by
  simp only [State.gated, State.raw, Bool.and_eq_true, decide_eq_true_eq]

theorem grow_age_hi (o : Output) : (o.grow true).age .hi = min (o.ageHi + 1) 255 := growAge_eq o.ageHi

theorem grow_age_lo (o : Output) : (o.grow false).age .lo = min (o.ageLo + 1) 255 := growAge_eq o.ageLo

/-- At a STOPPED timebase DEAD_TIME_EXPIRY names no tick. -/
theorem deadTimeExpiry_of_stopped (side : Side) (high : s.released) (stopped : s.tb[timebaseOf n].state = .stopped) :
    exec (.deadTimeExpiry n side) s = .next s := by
  rw [exec_deadTimeExpiry n s side high, tick_of_stopped s (timebaseOf n) stopped, ite_self]

theorem deadTimeExpiry_elsewhere (side : Side) (high : s.released) (elsewhere : ¬s.atExpiry n side = true) :
    exec (.deadTimeExpiry n side) s = .next s := by
  rw [exec_deadTimeExpiry n s side high, if_neg elsewhere]

theorem dutyMatch_elsewhere (high : s.released) (elsewhere : ¬s.atDuty n = true) : exec (.dutyMatch n) s = .next s := by
  rw [exec_dutyMatch n s high, if_neg elsewhere]

end

/-! ### One channel at a tick inside the period (R114, R125, R128) -/

section
variable (s : State) (n : Fin 6) (running : s.tb[timebaseOf n].state = .running)
  (inside : s.tb[timebaseOf n].counter + 1 < s.tb[timebaseOf n].period)
include running inside

theorem tick_inside_chn : (s.tick (timebaseOf n)).chn = s.chn := by
  rw [tick_inside s _ running inside]
  rfl

theorem tick_inside_raw :
    (s.tick (timebaseOf n)).raw n = decide (s.tb[timebaseOf n].counter + 1 < s.chn[n].duty) := by
  rw [tick_inside s _ running inside]
  show decide ((s.setTimebase (timebaseOf n) _).tb[timebaseOf n].counter < s.chn[n].duty) = _
  rw [State.setTimebase_get, if_pos rfl]

theorem tick_inside_gated_iff : (s.tick (timebaseOf n)).gated n = true ↔
    s.tb[timebaseOf n].counter + 1 < s.chn[n].duty ∧ s.gateOpen n = true := by
  have raw := tick_inside_raw s n running inside
  rw [tick_inside s _ running inside] at raw ⊢
  rw [tickAges_gated, State.gated, Bool.and_eq_true]
  refine and_congr ?_ Iff.rfl
  exact (Bool.eq_iff_iff.mp raw).trans decide_eq_true_iff

/-- Inside a period no channel enters RUNNING, so edges alone restart the ages. -/
theorem tick_inside_out : (s.tick (timebaseOf n)).out[n] =
    if s.gated n ≠ (s.tick (timebaseOf n)).gated n then s.out[n].restartAges
    else s.out[n].grow ((s.tick (timebaseOf n)).gated n) := by
  rw [tick_inside s _ running inside, tickAges_gated, tickAges_out, if_neg (Classical.not_not.mpr rfl)]
  refine ite_congr (propext (or_iff_left ?_)) (fun _ => rfl) (fun _ => rfl)
  exact fun entered => entered.1 entered.2

/-- A rise of the counter makes no rise of the gated level. -/
theorem gated_of_tick_inside (after : (s.tick (timebaseOf n)).gated n = true) : s.gated n = true := by
  obtain ⟨below, gate⟩ := (tick_inside_gated_iff s n running inside).mp after
  exact (gated_iff n s).mpr ⟨by omega, gate⟩

/-- Without an edge the age at the gated level grows. -/
theorem tick_inside_out_of_same (level : Bool) (before : s.gated n = level)
    (after : (s.tick (timebaseOf n)).gated n = level) : (s.tick (timebaseOf n)).out[n] = s.out[n].grow level := by
  rw [tick_inside_out s n running inside, before, after, if_neg (Classical.not_not.mpr rfl)]

/-- The fall of the gated level restarts the ages. -/
theorem tick_inside_out_of_fall (before : s.gated n = true) (after : (s.tick (timebaseOf n)).gated n = false) :
    (s.tick (timebaseOf n)).out[n] = s.out[n].restartAges := by
  rw [tick_inside_out s n running inside, before, after, if_pos (by decide)]

/-- DEAD_TIME_EXPIRY where its condition holds is the tick that makes the output active. -/
theorem deadTimeExpiry_names (side : Side) (high : s.released) (expiry : s.atExpiry n side = true) :
    ∃ u, exec (.deadTimeExpiry n side) s = .next u ∧ exec (.timebaseTick (timebaseOf n)) s = .next u ∧
      s.logical n side = false ∧ u.logical n side = true ∧ u.out[n].age side = s.chn[n].deadTime := by
  obtain ⟨idle, active, age⟩ := (atExpiry_iff n s side).mp expiry
  rw [tick_inside_chn s n running inside] at age
  exact ⟨s.tick (timebaseOf n), by rw [exec_deadTimeExpiry n s side high, if_pos expiry], exec_timebaseTick _ s high,
    idle, active, age⟩

/-- HIn becomes active inside a period only where its age reaches the dead time under a gated level of 1 that stands. -/
theorem of_atExpiry_hi (expiry : s.atExpiry n .hi = true) : s.gateOpen n = true ∧
    s.tb[timebaseOf n].counter + 1 < s.chn[n].duty ∧ s.out[n].ageHi + 1 = s.chn[n].deadTime := by
  obtain ⟨idle, active, age⟩ := (atExpiry_iff n s .hi).mp expiry
  have after := ((logical_hi_iff n _).mp active).1
  have before := gated_of_tick_inside s n running inside after
  have young := young_hi_of_idle n s idle before
  obtain ⟨below, gate⟩ := (tick_inside_gated_iff s n running inside).mp after
  rw [tick_inside_chn s n running inside, tick_inside_out_of_same s n running inside true before after,
    grow_age_hi] at age
  exact ⟨gate, below, by omega⟩

theorem atExpiry_hi (small : s.chn[n].deadTime ≤ 255) (gate : s.gateOpen n = true)
    (below : s.tb[timebaseOf n].counter + 1 < s.chn[n].duty) (reached : s.out[n].ageHi + 1 = s.chn[n].deadTime) :
    s.atExpiry n .hi = true := by
  have after := (tick_inside_gated_iff s n running inside).mpr ⟨below, gate⟩
  have before := gated_of_tick_inside s n running inside after
  have age : (s.tick (timebaseOf n)).out[n].age .hi = s.chn[n].deadTime := by
    rw [tick_inside_out_of_same s n running inside true before after, grow_age_hi]
    omega
  have chn := tick_inside_chn s n running inside
  refine (atExpiry_iff n s .hi).mpr ⟨Bool.eq_false_iff.mpr fun active => ?_, ?_, by rw [chn]; exact age⟩
  · have old := ((logical_hi_iff n s).mp active).2
    omega
  · exact (logical_hi_iff n _).mpr ⟨after, by rw [chn]; exact Nat.le_of_eq age.symm⟩

/-- LOn becomes active inside a period only where its age reaches the dead time under a gated level of 0 that stands, or,
with a dead time of 0, at the fall. -/
theorem of_atExpiry_lo (expiry : s.atExpiry n .lo = true) :
    (s.gated n = false ∧ s.out[n].ageLo + 1 = s.chn[n].deadTime) ∨
    (s.chn[n].deadTime = 0 ∧ s.gated n = true ∧ s.tb[timebaseOf n].counter + 1 = s.chn[n].duty) := by
  obtain ⟨idle, active, age⟩ := (atExpiry_iff n s .lo).mp expiry
  have after := ((logical_lo_iff n _).mp active).1
  rw [tick_inside_chn s n running inside] at age
  cases before : s.gated n with
  | false =>
    have young := young_lo_of_idle n s idle before
    rw [tick_inside_out_of_same s n running inside false before after, grow_age_lo] at age
    exact .inl ⟨rfl, by omega⟩
  | true =>
    obtain ⟨below, gate⟩ := (gated_iff n s).mp before
    have fallen : ¬(s.tb[timebaseOf n].counter + 1 < s.chn[n].duty) := fun still =>
      Bool.eq_false_iff.mp after ((tick_inside_gated_iff s n running inside).mpr ⟨still, gate⟩)
    rw [tick_inside_out_of_fall s n running inside before after] at age
    exact .inr ⟨age.symm, rfl, by omega⟩

theorem atExpiry_lo (small : s.chn[n].deadTime ≤ 255) (before : s.gated n = false)
    (reached : s.out[n].ageLo + 1 = s.chn[n].deadTime) : s.atExpiry n .lo = true := by
  have after : (s.tick (timebaseOf n)).gated n = false := Bool.eq_false_iff.mpr fun risen =>
    Bool.eq_false_iff.mp before (gated_of_tick_inside s n running inside risen)
  have age : (s.tick (timebaseOf n)).out[n].age .lo = s.chn[n].deadTime := by
    rw [tick_inside_out_of_same s n running inside false before after, grow_age_lo]
    omega
  have chn := tick_inside_chn s n running inside
  refine (atExpiry_iff n s .lo).mpr ⟨Bool.eq_false_iff.mpr fun active => ?_, ?_, by rw [chn]; exact age⟩
  · have old := ((logical_lo_iff n s).mp active).2
    omega
  · exact (logical_lo_iff n _).mpr ⟨after, by rw [chn]; exact Nat.le_of_eq age.symm⟩

theorem atExpiry_lo_at_fall (zero : s.chn[n].deadTime = 0) (before : s.gated n = true)
    (falls : s.tb[timebaseOf n].counter + 1 = s.chn[n].duty) : s.atExpiry n .lo = true := by
  have after : (s.tick (timebaseOf n)).gated n = false := Bool.eq_false_iff.mpr fun still => by
    obtain ⟨below, -⟩ := (tick_inside_gated_iff s n running inside).mp still
    omega
  have chn := tick_inside_chn s n running inside
  refine (atExpiry_iff n s .lo).mpr ⟨Bool.eq_false_iff.mpr fun active => ?_, ?_, ?_⟩
  · exact Bool.eq_false_iff.mp ((logical_lo_iff n s).mp active).1 before
  · exact (logical_lo_iff n _).mpr ⟨after, by rw [chn, zero]; exact Nat.zero_le _⟩
  · rw [chn, zero, tick_inside_out_of_fall s n running inside before after]
    rfl

end

end Sys2Proof.Machine.Timebases

open Sys2Proof.Machine.Timebases

/-- Settles O16: the tick inside a period channel by channel, and the two rows as that tick just where their conditions hold. -/
theorem ticksInsideAPeriod : Obligations.TicksInsideAPeriod := by
  refine ⟨fun b s high => ⟨fun stopped => ?_, fun running inside => ?_⟩, fun n s high running inside => ?_,
    fun n s high => ⟨fun elsewhere => ?_, fun stopped side => ?_, fun side u next => ?_⟩⟩
  · rw [exec_timebaseTick b s high, tick_of_stopped s b stopped]
  · intro v
    rw [exec_timebaseTick b s high, tick_inside s b running inside]
    refine congrArg _ (congrArg (fun out => { v with out := out }) (congrArg Vector.ofFn (funext fun n => ?_)))
    refine ite_congr rfl (fun _ => rfl) fun _ => ite_congr (propext (or_iff_left ?_)) (fun _ => rfl) fun _ => grow_eq _ _
    exact fun entered => entered.1 entered.2
  · refine ⟨fun falls => ?_, fun elsewhere => ?_, fun small gate below reached => ?_, fun elsewhere => ?_,
      fun small low reached => ?_, fun zero rises falls => ?_, fun elsewhere atFall => ?_⟩
    · refine ⟨s.tick (timebaseOf n), ?_, exec_timebaseTick _ s high, ?_, ?_⟩
      · rw [exec_dutyMatch n s high, if_pos ((atDuty_iff n s).mpr ⟨running, inside, falls⟩)]
      · exact decide_eq_true (by omega)
      · rw [tick_inside_raw s n running inside]
        exact decide_eq_false (by omega)
    · exact dutyMatch_elsewhere n s high fun falls => elsewhere ((atDuty_iff n s).mp falls).2.2
    · exact deadTimeExpiry_names s n running inside .hi high (atExpiry_hi s n running inside small gate below reached)
    · exact deadTimeExpiry_elsewhere n s .hi high fun expiry => elsewhere (of_atExpiry_hi s n running inside expiry)
    · exact deadTimeExpiry_names s n running inside .lo high (atExpiry_lo s n running inside small low reached)
    · obtain ⟨u, row, tick, idle, active, -⟩ := deadTimeExpiry_names s n running inside .lo high
        (atExpiry_lo_at_fall s n running inside zero rises falls)
      exact ⟨u, row, tick, idle, active⟩
    · exact deadTimeExpiry_elsewhere n s .lo high fun expiry =>
        (of_atExpiry_lo s n running inside expiry).elim elsewhere atFall
  · refine dutyMatch_elsewhere n s high fun falls => ?_
    obtain ⟨running, inside, -⟩ := (atDuty_iff n s).mp falls
    rcases elsewhere with stopped | last
    · exact nomatch running.symm.trans stopped
    · omega
  · exact deadTimeExpiry_of_stopped n s side high stopped
  · obtain rfl : s.tick (timebaseOf n) = u := by
      rw [exec_timebaseTick _ s high] at next
      injection next
    intro age
    have own : age = (s.tick (timebaseOf n)).out[n].age side := by cases side <;> rfl
    rw [own]
    refine ⟨fun idle active reached => ?_, fun elsewhere => ?_⟩
    · rw [exec_deadTimeExpiry n s side high, if_pos ((atExpiry_iff n s side).mpr ⟨idle, active, reached⟩)]
    · exact deadTimeExpiry_elsewhere n s side high fun expiry => elsewhere ((atExpiry_iff n s side).mp expiry)
end

section
/-! PROOFS. CLEAR_FLAGS over a set, and the channel without a pending exception that it leaves (R108 to R110). -/

open Sys2Proof Sys2Proof.Machine Sys2Proof.Machine.Setpoints Sys2Proof.Machine.Timebases

namespace Sys2Proof.Machine.Channels

/-- CLEAR_FLAGS at one channel, as an update of its record. -/
theorem clearSticky_eq_rewriteChannel :
    State.clearSticky = rewriteChannel (fun c => { c with sticky := .clear }) (fun _ r => r) := by
  funext s n
  exact (setRing_self (s.clearSticky n) n).symm

/-- No flag, no pending exception, whatever the mask (R110). -/
theorem firstPending_of_clear (c : Channel) (clear : c.sticky = .clear) : c.firstPending = none := by
  refine firstPending_eq_none c fun e flag => ?_
  rw [clear] at flag
  cases e <;> exact nomatch flag

/-- A flag that is set reads back as set, whatever the flags before (R109). -/
theorem insert_get (flags : ExcSet) (e : Exc) : (flags.insert e).get e = true := by cases e <;> rfl

/-- Without a pending exception the boundary comes to the pop (R120). -/
theorem channelBoundary_of_clear (s : State) (n : Fin 6) (period : Nat) (clear : s.chn[n].firstPending = none) :
    s.channelBoundary period n = if s.chn[n].state = .armed ∨ s.chn[n].state = .running then
      (s.takeDeadTime n).popApply n period else s.takeDeadTime n := by
  split
  next takes => exact channelBoundary_pop s n period takes clear
  next rests => exact channelBoundary_rest s n period rests

end Sys2Proof.Machine.Channels

open Sys2Proof.Machine.Channels

/-- Settles O20: the fold of the action over the set is one update of the sticky flags, which bear on no gated level. -/
theorem clearFlagsClearsTheStickyFlags : Obligations.ClearFlagsClearsTheStickyFlags := by
  intro set s high named existing u
  have done (o : Origin) : clearFlagsChannels set o s = doneWith u := by
    rw [clearFlagsChannels, channelControl_done _ _ set o s named existing fun _ _ => rfl, clearSticky_eq_rewriteChannel,
      foldl_selectedChannels]
    simp only [rewriteSet, ite_self, Fin.getElem_fin, Vector.ofFn_getElem]
    rfl
  have channel (n : Fin 6) : u.chn[n] =
      if set.getLsbD n.val then { s.chn[n] with sticky := ⟨false, false, false, false⟩ } else s.chn[n] := by
    simp only [u, Fin.getElem_fin, Vector.getElem_ofFn]
  have same (n : Fin 6) : u.gated n = s.gated n := by
    refine State.gated_congr n rfl ?_ rfl fun _ => rfl
    rw [channel]
    split <;> rfl
  refine ⟨?_, ?_, fun n selected => ?_⟩
  · refine (event_held_done true (clearFlagsChannels set) s high (done .command)).trans ?_
    rw [settleEdges_of_same s (u.answered .done) same]
  · refine (event_broadcast_done (clearFlagsChannels set) s high (done .broadcast)).trans ?_
    rw [settleEdges_of_same s u same]
  · have cleared := channel n
    rw [if_pos selected] at cleared
    have clear : u.chn[n].firstPending = none := firstPending_of_clear _ (by rw [cleared]; rfl)
    refine ⟨clear, fun fault => ⟨clearFaultRefusal_eq_none _ fault clear, by rw [cleared]⟩,
      fun p => channelBoundary_of_clear u n p clear, fun e => ?_⟩
    rw [(u.raise_get n e).1]
    exact insert_get _ e
end

section
/-! PROOFS. Refusals of CHANNEL CONTROL and TIMEBASE CONTROL: the set, then the lowest number that refuses (R103 to R106, R115). -/

open Sys2Proof Sys2Proof.Machine Sys2Proof.Machine.Setpoints Sys2Proof.Machine.Timebases

namespace Sys2Proof.Machine.Channels

/-! ### The rows of a refused command (R170, R171) -/

section
variable (rule : Rule) (s : State) (high : s.released) {result : Result} {reply : List Byte}
include high

theorem event_held_refusedWith (p : Bool) (h : rule .command s = refuse result s reply) :
    event (carried .held p rule) s = .next (s.answered result reply) := by
  rw [event_high _ s high, carried_held, h]
  exact congrArg _ (settleEdges_of_blocks s (s.answered result reply) rfl rfl rfl rfl)

theorem event_broadcast_refused (h : rule .broadcast s = refuse result s reply) :
    event (carried .broadcast true rule) s = .next s := by
  rw [event_high _ s high, carried_broadcast, h]
  exact congrArg _ (settleEdges_self s)

/-- A rule that refuses whatever its carrier: the answer of a held command, and no effect of a broadcast. -/
theorem event_refused (h : ∀ o, rule o s = refuse result s reply) :
    event (carried .held true rule) s = .next (s.answered result reply) ∧
    event (carried .broadcast true rule) s = .next s :=
  ⟨event_held_refusedWith rule s high true (h .command), event_broadcast_refused rule s high (h .broadcast)⟩

end

/-! ### Bad sets (R103 (1), R115 (1)) -/

section
variable (set : Byte) (o : Origin) (s : State)

theorem channelControl_badSet (refusal : Channel → Option Result) (act : State → Fin 6 → State)
    (bad : set = 0 ∨ set &&& 0xC0 ≠ 0) : channelControl refusal act set o s = refuse .badArgument s := by
  rw [channelControl, channelSetBad, decide_eq_true bad, if_pos rfl]

theorem startTimebases_badSet (bad : set = 0 ∨ set &&& 0xFC ≠ 0) :
    startTimebases set o s = refuse .badArgument s := by
  rw [startTimebases, timebaseSetBad, decide_eq_true bad, if_pos rfl]

theorem stopTimebases_badSet (bad : set = 0 ∨ set &&& 0xFC ≠ 0) :
    stopTimebases set o s = refuse .badArgument s := by
  rw [stopTimebases, timebaseSetBad, decide_eq_true bad, if_pos rfl]

end

/-! ### The lowest that refuses (R103 (2), R115 (2)) -/

/-- In ascending order the first hit is the lowest. -/
theorem findSome?_of_lowest {k : Nat} {β : Type} (f : Fin k → Option β) (b : β) (n : Fin k) (l : List (Fin k))
    (ascending : l.Pairwise (· < ·)) (listed : n ∈ l) (hit : f n = some b) (lower : ∀ m ∈ l, m < n → f m = none) :
    l.findSome? f = some b := by
  induction l with
  | nil => exact nomatch listed
  | cons m l ih =>
    obtain ⟨least, rest⟩ := List.pairwise_cons.mp ascending
    rw [List.findSome?_cons]
    rcases List.mem_cons.mp listed with rfl | later
    · rw [hit]
    · rw [lower m List.mem_cons_self (least n later)]
      exact ih rest later fun r among => lower r (List.mem_cons_of_mem m among)

theorem channelControl_refused (refusal : Channel → Option Result) (act : State → Fin 6 → State) (set : Byte) (o : Origin)
    (s : State) (named : set ≠ 0) (existing : set &&& 0xC0 = 0) (n : Fin 6) (result : Result)
    (selected : set.getLsbD n.val = true) (refused : refusal s.chn[n] = some result)
    (lower : ∀ m : Fin 6, m < n → set.getLsbD m.val = true → refusal s.chn[m] = none) :
    channelControl refusal act set o s = refuse result s [BitVec.ofNat 8 n.val] := by
  have first : firstRefusal s refusal set = some (n, result) := by
    refine findSome?_of_lowest _ _ n _ ?_ ((mem_selectedChannels set n).mpr selected) ?_ fun m listed below => ?_
    · exact List.Pairwise.filter _ (show allChannels.Pairwise (· < ·) by decide)
    · rw [refused]; rfl
    · rw [lower m below ((mem_selectedChannels set m).mp listed)]; rfl
  simp only [channelControl, channelSetBad_eq_false set named existing, Bool.false_eq_true, if_false, first]

theorem startTimebases_refused (set : Byte) (o : Origin) (s : State) (named : set ≠ 0) (existing : set &&& 0xFC = 0)
    (t : Fin 2) (selected : set.getLsbD t.val = true) (running : s.tb[t].state = .running)
    (lower : ∀ r : Fin 2, r < t → set.getLsbD r.val = true → s.tb[r].state = .stopped) :
    startTimebases set o s = refuse .wrongState s [BitVec.ofNat 8 t.val] := by
  have mem (r : Fin 2) : r ∈ selectedTimebases set ↔ set.getLsbD r.val = true := by
    rw [← selectedTimebases_contains, List.contains_iff_mem]
  have first : ((selectedTimebases set).find? fun t => s.tb[t].state = .running) = some t := by
    rw [← List.findSome?_guard]
    refine findSome?_of_lowest _ _ t _ ?_ ((mem t).mpr selected) ?_ fun r listed below => ?_
    · exact List.Pairwise.filter _ (show ([0, 1] : List (Fin 2)).Pairwise (· < ·) by decide)
    · exact Option.guard_eq_some_iff.mpr ⟨rfl, decide_eq_true running⟩
    · refine Option.guard_eq_none_iff.mpr ?_
      rw [lower r below ((mem r).mp listed)]
      decide
  simp only [startTimebases, timebaseSetBad_eq_false set named existing, Bool.false_eq_true, if_false, first]

/-! ### How a channel refuses (R104, R106) -/

/-- An exception of the channel is pending: its flag set, its mask bit clear (R110). -/
theorem firstPending_isSome (c : Channel) (pending : ∃ e : Exc, c.sticky.get e = true ∧ c.mask.get e = false) :
    c.firstPending.isSome = true := by
  obtain ⟨e, flag, unmasked⟩ := pending
  rw [Channel.firstPending, List.find?_isSome]
  refine ⟨e, ?_, by rw [flag, unmasked]; rfl⟩
  cases e <;> decide

theorem firstPending_of_not_pending (c : Channel) (free : ¬∃ e : Exc, c.sticky.get e = true ∧ c.mask.get e = false) :
    c.firstPending = none :=
  firstPending_eq_none c fun e flag => by
    cases masked : c.mask.get e with
    | true => rfl
    | false => exact absurd ⟨e, flag, masked⟩ free

section
variable (c : Channel)

theorem enableRefusal_wrongState (other : c.state ≠ .disabled) : enableRefusal c = some .wrongState := if_pos other

theorem clearFaultRefusal_wrongState (other : c.state ≠ .fault) : clearFaultRefusal c = some .wrongState := if_pos other

variable (pending : ∃ e : Exc, c.sticky.get e = true ∧ c.mask.get e = false)
include pending

theorem enableRefusal_pending (state : c.state = .disabled) : enableRefusal c = some .pendingException :=
  (if_neg (Classical.not_not.mpr state)).trans (if_pos (firstPending_isSome c pending))

theorem clearFaultRefusal_pending (state : c.state = .fault) : clearFaultRefusal c = some .pendingException :=
  (if_neg (Classical.not_not.mpr state)).trans (if_pos (firstPending_isSome c pending))

end

end Sys2Proof.Machine.Channels

open Sys2Proof.Machine.Channels

/-- Settles O21: each command tests its set, then takes the first refusal in ascending order. -/
theorem controlCommandsAreRefusedWhole : Obligations.ControlCommandsAreRefusedWhole := by
  intro set s high
  refine ⟨fun bad => ?_, fun t named existing selected running lower => ?_, fun bad => ?_, fun named existing n selected => ?_⟩
  · obtain ⟨startHeld, startHeard⟩ := event_refused (startTimebases set) s high fun o => startTimebases_badSet set o s bad
    obtain ⟨stopHeld, stopHeard⟩ := event_refused (stopTimebases set) s high fun o => stopTimebases_badSet set o s bad
    exact ⟨startHeld, stopHeld, startHeard, stopHeard⟩
  · exact event_refused (startTimebases set) s high fun o =>
      startTimebases_refused set o s named existing t selected running lower
  · have row (refusal : Channel → Option Result) (act : State → Fin 6 → State) :=
      event_refused (channelControl refusal act set) s high fun o => channelControl_badSet set o s refusal act bad
    obtain ⟨enableHeld, enableHeard⟩ := row enableRefusal State.arm
    obtain ⟨disableHeld, disableHeard⟩ := row (fun _ => none) State.disable
    obtain ⟨faultHeld, faultHeard⟩ := row clearFaultRefusal State.arm
    obtain ⟨flagsHeld, flagsHeard⟩ := row (fun _ => none) State.clearSticky
    exact ⟨enableHeld, disableHeld, faultHeld, flagsHeld, enableHeard, disableHeard, faultHeard, flagsHeard⟩
  · intro blocked
    have row (refusal : Channel → Option Result) (result : Result) (refused : refusal s.chn[n] = some result)
        (lower : ∀ m : Fin 6, m < n → set.getLsbD m.val = true → refusal s.chn[m] = none) :=
      event_refused (channelControl refusal State.arm set) s high fun o =>
        channelControl_refused refusal State.arm set o s named existing n result selected refused lower
    refine ⟨fun lower => ?_, fun lower => ?_⟩
    · have free (m : Fin 6) (below : m < n) (among : set.getLsbD m.val = true) : enableRefusal s.chn[m] = none := by
        obtain ⟨state, clear⟩ := lower m below among
        exact enableRefusal_eq_none _ state (firstPending_of_not_pending _ clear)
      exact ⟨fun other => row _ _ (enableRefusal_wrongState _ other) free,
        fun state pending => row _ _ (enableRefusal_pending _ pending state) free⟩
    · have free (m : Fin 6) (below : m < n) (among : set.getLsbD m.val = true) : clearFaultRefusal s.chn[m] = none := by
        obtain ⟨state, clear⟩ := lower m below among
        exact clearFaultRefusal_eq_none _ state (firstPending_of_not_pending _ clear)
      exact ⟨fun other => row _ _ (clearFaultRefusal_wrongState _ other) free,
        fun state pending => row _ _ (clearFaultRefusal_pending _ pending state) free⟩
end

section
/-! PROOFS. Writes of the filter lengths, the staged period and the prescaler: the tests in their order, and the field replaced
(R117, R140). -/

open Sys2Proof Sys2Proof.Machine Sys2Proof.Machine.Setpoints

namespace Sys2Proof.Machine.Timebases

/-! ### Reserved bits (R182) -/

theorem reserved_pair_iff (v : Word) : v &&& 0xFFFFFFFC ≠ 0 ↔ 4 ≤ v.toNat :=
  (not_congr (and_highBits_eq_zero_iff v 2)).trans Nat.not_lt

theorem reserved_half_iff (v : Word) : v &&& 0xFFFF0000 ≠ 0 ↔ 65536 ≤ v.toNat :=
  (not_congr (and_highBits_eq_zero_iff v 16)).trans Nat.not_lt

/-! ### The rules (R117, R140) -/

section
variable (v : Word) (o : Origin) (s : State)

theorem writeTripFilter_eq : writeTripFilter v o s =
    if 4 ≤ v.toNat then refuse .reservedField s
    else if v.toNat = 3 then refuse .badArgument s
    else doneWith { s with tiu := { s.tiu with trip := s.tiu.trip.setCode (BitVec.ofNat 2 v.toNat) } } := by
  have three : v = 3 ↔ v.toNat = 3 := BitVec.toNat_inj.symm
  simp only [writeTripFilter, reserved_pair_iff, three, BitVec.ofNat_toNat]

theorem writeInputFilter_eq (k : Fin 8) : writeInputFilter k v o s =
    if 4 ≤ v.toNat then refuse .reservedField s
    else doneWith { s with tiu := { s.tiu with
      inputs := s.tiu.inputs.set k (s.tiu.inputs[k].setCode (BitVec.ofNat 2 v.toNat)) } } := by
  simp only [writeInputFilter, reserved_pair_iff, BitVec.ofNat_toNat]

theorem writePeriod_eq (t : Fin 2) : writePeriod t v o s =
    if 65536 ≤ v.toNat then refuse .reservedField s
    else if v.toNat < 2 then refuse .badArgument s
    else doneWith (s.setTimebase t { s.tb[t] with staged := v.toNat }) := by
  simp only [writePeriod, reserved_half_iff]

theorem writePrescaler_eq (t : Fin 2) : writePrescaler t v o s =
    if 4 ≤ v.toNat then refuse .reservedField s
    else if s.tb[t].state = .running then refuse .wrongState s
    else doneWith (s.setTimebase t { s.tb[t] with prescaler := BitVec.ofNat 2 v.toNat }) := by
  simp only [writePrescaler, reserved_pair_iff, BitVec.ofNat_toNat]

end

/-! ### The rows: a new length keeps the level and a setting of a timebase the counter, so neither makes an edge -/

section
variable (rule : Rule) (s : State) (high : s.released)
include high

/-- A write that keeps the gated levels leaves no edge to settle. -/
theorem event_held_of_same (u : State) (same : ∀ n : Fin 6, u.gated n = s.gated n) (h : rule .command s = doneWith u) :
    event (carried .held false rule) s = .next (u.answered .done) :=
  (event_held_done false rule s high h).trans (congrArg _ (settleEdges_of_same s (u.answered .done) same))

theorem event_held_setInput (k : Fin 8) (code : BitVec 2)
    (h : rule .command s = doneWith { s with tiu := { s.tiu with
      inputs := s.tiu.inputs.set k (s.tiu.inputs[k].setCode code) } }) :
    event (carried .held false rule) s = .next (State.answered { s with tiu := { s.tiu with
      inputs := s.tiu.inputs.set k (s.tiu.inputs[k].setCode code) } } .done) := by
  refine event_held_of_same rule s high _ (fun n => State.gated_congr n rfl rfl rfl fun j => ?_) h
  simp only [Fin.getElem_fin, Vector.getElem_set]
  split
  next same => simp only [Filter.setCode, same]
  next => rfl

theorem event_held_setTimebase (t : Fin 2) (b : Timebase) (counter : b.counter = s.tb[t].counter)
    (h : rule .command s = doneWith (s.setTimebase t b)) :
    event (carried .held false rule) s = .next ((s.setTimebase t b).answered .done) := by
  refine event_held_of_same rule s high _ (fun n => State.gated_congr n ?_ rfl rfl fun _ => rfl) h
  rw [State.setTimebase_get]
  split
  next same => subst same; exact counter
  next => rfl

end

end Sys2Proof.Machine.Timebases

open Sys2Proof.Machine.Timebases

/-- Settles O25: each range of the value and each state takes one branch of its rule. -/
theorem filterAndTimebaseParameterWrites : Obligations.FilterAndTimebaseParameterWrites := by
  have refused (rule : Rule) (result : Result) (s : State) (high : s.released) (h : rule .command s = refuse result s) :
      event (carried .held false rule) s = .next (s.answered result) := event_held_refused false rule s high h
  refine ⟨fun s value high => ⟨fun large => ⟨?_, fun k => ?_⟩, fun three => ?_, fun small => ?_, fun small k => ?_⟩,
    fun s b value high => ⟨fun large => ?_, fun low => ?_, fun low small => ?_, fun large => ?_,
      fun small running => ?_, fun small stopped => ?_⟩⟩
  · refine refused (writeTripFilter value) _ s high ?_
    rw [writeTripFilter_eq, if_pos large]
  · refine refused (writeInputFilter k value) _ s high ?_
    rw [writeInputFilter_eq, if_pos large]
  · refine refused (writeTripFilter value) _ s high ?_
    rw [writeTripFilter_eq, if_neg (by omega), if_pos three]
  · refine event_held_of_same (writeTripFilter value) s high _ (fun n => State.gated_congr n rfl rfl rfl fun _ => rfl)
      ((writeTripFilter_eq value .command s).trans ?_)
    rw [if_neg (by omega), if_neg (by omega)]
    rfl
  · refine event_held_setInput (writeInputFilter k value) s high k (BitVec.ofNat 2 value.toNat) ?_
    rw [writeInputFilter_eq, if_neg (Nat.not_le.mpr small)]
  · refine refused (writePeriod b value) _ s high ?_
    rw [writePeriod_eq, if_pos large]
  · refine refused (writePeriod b value) _ s high ?_
    rw [writePeriod_eq, if_neg (by omega), if_pos low]
  · refine event_held_setTimebase (writePeriod b value) s high b { s.tb[b] with staged := value.toNat } rfl ?_
    rw [writePeriod_eq, if_neg (by omega), if_neg (by omega)]
  · refine refused (writePrescaler b value) _ s high ?_
    rw [writePrescaler_eq, if_pos large]
  · refine refused (writePrescaler b value) _ s high ?_
    rw [writePrescaler_eq, if_neg (by omega), if_pos running]
  · refine event_held_setTimebase (writePrescaler b value) s high b
      { s.tb[b] with prescaler := BitVec.ofNat 2 value.toNat } rfl ?_
    rw [writePrescaler_eq, if_neg (by omega), if_neg (by rw [stopped]; decide)]
end

section
/-! PROOFS. States in which the ages of each channel are kept or restarted, and the management commands that lead to them
(R128). -/

open Sys2Proof Sys2Proof.Machine

namespace Sys2Proof.Machine.Waveform

/-! ### Ages kept or restarted -/

/-- Each channel has the ages it had, or both at 0. -/
def AgesHeld (s u : State) : Prop :=
  ∀ n : Fin 6, (u.out[n].ageHi = s.out[n].ageHi ∧ u.out[n].ageLo = s.out[n].ageLo) ∨
    (u.out[n].ageHi = 0 ∧ u.out[n].ageLo = 0)

theorem AgesHeld.of_out {s u : State} (out : u.out = s.out) : AgesHeld s u := by
  intro n
  rw [out]
  exact .inl ⟨rfl, rfl⟩

theorem AgesHeld.refl (s : State) : AgesHeld s s := .of_out rfl

theorem AgesHeld.trans {s u v : State} (first : AgesHeld s u) (later : AgesHeld u v) : AgesHeld s v := by
  intro n
  rcases later n with ⟨hi, lo⟩ | restarted
  · rw [hi, lo]
    exact first n
  · exact .inr restarted

/-- Work that begins in a state of the same outputs. -/
theorem AgesHeld.of_same_out {s u v : State} (held : AgesHeld u v) (out : u.out = s.out) : AgesHeld s v :=
  (AgesHeld.of_out out).trans held

theorem AgesHeld.foldl {α : Type} (f : State → α → State) (step : ∀ s a, AgesHeld s (f s a)) (l : List α) (s : State) :
    AgesHeld s (l.foldl f s) := by
  induction l generalizing s with
  | nil => exact .refl s
  | cons a l ih => exact (step s a).trans (ih (f s a))

/-- One output replaced by one of the same ages, or by a restarted one. -/
theorem AgesHeld.setOutput (s : State) (n : Fin 6) (o : Output)
    (ages : (o.ageHi = s.out[n].ageHi ∧ o.ageLo = s.out[n].ageLo) ∨ (o.ageHi = 0 ∧ o.ageLo = 0)) :
    AgesHeld s (s.setOutput n o) := by
  intro m
  rw [State.setOutput_get]
  split
  next same => rw [same]; exact ages
  next => exact .inl ⟨rfl, rfl⟩

theorem restartAges_ages (s : State) (n : Fin 6) : AgesHeld s (s.restartAges n) := .setOutput s n _ (.inr ⟨rfl, rfl⟩)

theorem endForcing_ages (s : State) (n : Fin 6) : AgesHeld s (s.endForcing n) := .setOutput s n _ (.inr ⟨rfl, rfl⟩)

theorem settleEdges_ages (s u : State) : AgesHeld u (settleEdges s u) := by
  intro n
  rw [settleEdges_out]
  split
  · exact .inl ⟨rfl, rfl⟩
  · exact .inr ⟨rfl, rfl⟩

/-! ### The shared operations leave the outputs alone -/

theorem channelsWork_ages {s u : State} (work : ChannelsWork s u) : AgesHeld s u := by
  obtain ⟨-, -, -, -, out, -⟩ := work.blocks
  exact .of_out out

theorem lineWork_ages {s u : State} (work : LineWork s u) : AgesHeld s u := by
  obtain ⟨-, -, -, -, out, -⟩ := work.blocks
  exact .of_out out

theorem loadsWork_ages {s u : State} (work : LoadsWork s u) : AgesHeld s u := by
  obtain ⟨-, -, -, -, -, out, -⟩ := work.blocks
  exact .of_out out

/-! ### Management commands -/

/-- A rule that holds the ages, whatever its carrier. -/
def HoldsAges (rule : Rule) : Prop := ∀ o s, AgesHeld s (rule o s).state

/-- Behind a test that refuses, the ages are those of the rest of the rule. -/
theorem AgesHeld.unless {s : State} {p : Prop} [Decidable p] {result : Result} {reply : List Byte} {e : Executed}
    (rest : AgesHeld s e.state) : AgesHeld s (if p then refuse result s reply else e).state := by
  split
  · exact .refl s
  · exact rest

theorem refuse_ages (result : Result) : HoldsAges fun _ s => refuse result s := fun _ s => .refl s

theorem acknowledgeAttention_ages (set : Half) : HoldsAges (acknowledgeAttention set) := fun _ _ => .unless (.of_out rfl)

theorem readParameter_ages (number : Half) : HoldsAges (readParameter number) := by
  intro o s
  rw [readParameter_rule]
  exact .refl s

theorem writeSafeLevels_ages (n : Fin 6) (v : Word) : HoldsAges (writeSafeLevels n v) := by
  intro o s
  refine .unless ?_
  split
  · exact .unless (.setOutput s n _ (.inl ⟨rfl, rfl⟩))
  · exact .refl s

theorem writeGate_ages (n : Fin 6) (v : Word) : HoldsAges (writeGate n v) := by
  intro o s
  refine .unless ?_
  split
  · exact .setOutput s n _ (.inl ⟨rfl, rfl⟩)
  · exact .refl s

theorem setTripEnable_ages (s : State) (n : Fin 6) (on : Bool) : AgesHeld s (s.setTripEnable n on) := by
  unfold State.setTripEnable
  dsimp only
  split
  · exact (restartAges_ages _ n).of_same_out rfl
  · exact .of_out rfl

/-- The owners' writes: settings of an output, the end of trip forcing, or another block. -/
theorem write_ages (p : Param) (v : Word) : HoldsAges (p.write v) := by
  intro o s
  cases p with
  | attentionMask | inputFilter | exceptionMask => exact .unless (.of_out rfl)
  | tripFilter | period | prescaler => exact .unless (.unless (.of_out rfl))
  | ringMode | ringDepth => exact .unless (.unless (.unless (.of_out rfl)))
  | deadTime n => exact .unless (.setOutput s n _ (.inl ⟨rfl, rfl⟩))
  | polarity n => exact .unless (.unless (.setOutput s n _ (.inl ⟨rfl, rfl⟩)))
  | safeLevels n => exact writeSafeLevels_ages n v o s
  | gate n => exact writeGate_ages n v o s
  | tripEnable n => exact .unless (setTripEnable_ages s n _)
  | _ => exact .refl s

theorem writeParameter_ages (number : Half) (v : Word) : HoldsAges (writeParameter number v) := by
  intro o s
  unfold writeParameter
  split
  · exact write_ages _ v o s
  · exact .refl s

theorem writeMapEntry_ages (index : Byte) (r : BitVec 64) : HoldsAges (writeMapEntry index r) := by
  intro o s
  refine .unless (.unless ?_)
  split
  · exact .refl s
  · exact .of_out rfl

theorem writeConversionRecord_ages (index : Byte) (r : BitVec 128) : HoldsAges (writeConversionRecord index r) := by
  intro o s
  refine .unless (.unless ?_)
  split
  · exact .refl s
  · exact .of_out rfl

theorem readMapEntry_ages (index selector : Byte) : HoldsAges (readMapEntry index selector) := by
  intro o s
  rw [readMapEntry_rule]
  exact .refl s

theorem readConversionRecord_ages (index selector : Byte) : HoldsAges (readConversionRecord index selector) := by
  intro o s
  rw [readConversionRecord_rule]
  exact .refl s

theorem commit_ages : HoldsAges commit := fun o s => loadsWork_ages (commit_work o s).1

theorem discardStaged_ages : HoldsAges discardStaged := fun _ _ => .unless (.of_out rfl)

/-- START restarts the ages of its channels (R128 (3)). -/
theorem startTimebase_ages (s : State) (t : Fin 2) : AgesHeld s (s.startTimebase t) := by
  unfold State.startTimebase
  refine .trans ?_ (.foldl _ restartAges_ages _ _)
  exact (channelsWork_ages (State.boundary_work _ t)).of_same_out rfl

theorem startTimebases_ages (set : Byte) : HoldsAges (startTimebases set) := by
  intro o s
  refine .unless ?_
  split
  · exact .refl s
  · exact .foldl _ startTimebase_ages _ s

theorem stopTimebases_ages (set : Byte) : HoldsAges (stopTimebases set) :=
  fun _ s => .unless (.foldl State.stopTimebase (fun _ _ => .of_out rfl) _ s)

theorem pushSetpoint_ages (channel format conversion : Byte) (value : Word) :
    HoldsAges (pushSetpoint channel format conversion value) := by
  intro o s
  unfold pushSetpoint
  split
  · exact .refl s
  · split
    · exact .refl s
    · split
      · exact .refl s
      · split
        · exact channelsWork_ages (s.deliver_work _ _ _).toChannelsWork
        · exact .refl s

theorem clearTrip_ages : HoldsAges clearTrip := by
  intro o s
  have cleared : AgesHeld s s.clearTrip := by
    refine (AgesHeld.foldl _ (fun u n => ?_) _ { s with tiu.latch := false }).of_same_out rfl
    split
    · exact endForcing_ages u n
    · exact .refl u
  exact .unless cleared

/-- A command to a load channel touches no output. -/
theorem withLoadChannel_ages (channel : Byte) (rule : Fin 2 → Rule) (each : ∀ k, HoldsAges (rule k)) :
    HoldsAges (withLoadChannel channel rule) := by
  intro o s
  unfold withLoadChannel
  split
  · exact each _ o s
  · exact .refl s

theorem loadSetup_ages (channel : Byte) (r : BitVec 64) : HoldsAges (loadSetup channel r) := by
  refine withLoadChannel_ages channel _ fun k o s => .unless ?_
  split
  · exact .refl s
  · exact .of_out rfl

theorem loadStart_ages (channel : Byte) : HoldsAges (loadStart channel) := by
  refine withLoadChannel_ages channel _ fun k o s => .unless ?_
  split
  · exact .of_out rfl
  · exact .unless (.of_out rfl)

theorem loadCancel_ages (channel : Byte) : HoldsAges (loadCancel channel) := by
  refine withLoadChannel_ages channel _ fun k o s => ?_
  have cancelled : AgesHeld s (s.setLoad k { s.lch[k] with state := .cancelled }) := .of_out rfl
  dsimp only
  split
  · simp only [doneWith]
    split
    · exact cancelled.trans (loadsWork_ages (State.cancelWaiting_work _))
    · exact cancelled
  · exact .refl s

theorem loadStatus_ages (channel : Byte) : HoldsAges (loadStatus channel) :=
  withLoadChannel_ages channel _ fun _ _ s => .refl s

theorem restart_ages : HoldsAges restart := by
  intro o s
  simp only [restart, doneWith]
  split
  · exact .of_out rfl
  · exact .refl s

theorem enableChannels_ages (set : Byte) : HoldsAges (enableChannels set) :=
  fun o s => channelsWork_ages (enableChannels_work set o s)

theorem disableChannels_ages (set : Byte) : HoldsAges (disableChannels set) :=
  fun o s => channelsWork_ages (disableChannels_work set o s)

theorem clearFaultChannels_ages (set : Byte) : HoldsAges (clearFaultChannels set) :=
  fun o s => channelsWork_ages (clearFaultChannels_work set o s)

theorem clearFlagsChannels_ages (set : Byte) : HoldsAges (clearFlagsChannels set) :=
  fun o s => channelsWork_ages (clearFlagsChannels_work set o s)

end Sys2Proof.Machine.Waveform
end

section
/-! PROOFS. The work of a character on the drive line keeps the ages, or restarts them by the command it carries
(R128, R168, R171). -/

open Sys2Proof Sys2Proof.Machine

namespace Sys2Proof.Machine.Waveform

/-! ### Payloads of telegrams -/

theorem channelAction_ages (set action : Byte) : HoldsAges (channelAction set action) := by
  unfold channelAction
  split
  · exact enableChannels_ages set
  · exact disableChannels_ages set
  · exact clearFaultChannels_ages set
  · exact clearFlagsChannels_ages set
  · exact refuse_ages _

theorem timebaseAction_ages (set action : Byte) : HoldsAges (timebaseAction set action) := by
  unfold timebaseAction
  split
  · exact startTimebases_ages set
  · exact stopTimebases_ages set
  · exact refuse_ages _

theorem tripAction_ages (action : Byte) : HoldsAges (tripAction action) := by
  unfold tripAction
  split
  · exact fun _ _ => .of_out rfl
  · exact clearTrip_ages
  · exact refuse_ages _

/-- Whatever a held or broadcast payload spells. -/
theorem commandRule_ages (code : Nat) (args : List Byte) : HoldsAges (commandRule code args) := by
  unfold commandRule
  split
  case h_5 => exact acknowledgeAttention_ages _
  case h_6 => exact readParameter_ages _
  case h_7 => exact writeParameter_ages _ _
  case h_8 => exact writeMapEntry_ages _ _
  case h_9 => exact readMapEntry_ages _ _
  case h_10 => exact writeConversionRecord_ages _ _
  case h_11 => exact readConversionRecord_ages _ _
  case h_12 => exact commit_ages
  case h_13 => exact discardStaged_ages
  case h_14 => exact channelAction_ages _ _
  case h_15 => exact timebaseAction_ages _ _
  case h_16 => exact pushSetpoint_ages _ _ _ _
  case h_17 => exact tripAction_ages _
  case h_18 => exact loadSetup_ages _ _
  case h_19 => exact loadStart_ages _
  case h_20 => exact loadCancel_ages _
  case h_21 => exact loadStatus_ages _
  case h_23 => exact restart_ages
  all_goals exact fun _ _ => .of_out rfl

theorem executeHeld_ages (payload : List Byte) (s : State) : AgesHeld s (executeHeld payload s).state := by
  unfold executeHeld
  dsimp only
  split
  · exact .refl s
  · split
    · exact commandRule_ages _ _ _ s
    · exact .refl s

theorem executeBroadcast_ages (payload : List Byte) (s : State) : AgesHeld s (executeBroadcast payload s) := by
  unfold executeBroadcast
  dsimp only
  split
  · split
    · exact commandRule_ages _ _ _ s
    · exact .refl s
  · exact .refl s

/-! ### The drive line -/

theorem takeOffer_ages (s : State) (mark offer : Byte) : AgesHeld s (s.takeOffer mark offer) := by
  unfold State.takeOffer
  split <;> exact .of_out rfl

theorem fixRestartPoint_ages (s : State) : AgesHeld s s.fixRestartPoint := by
  unfold State.fixRestartPoint
  split
  · exact .of_out rfl
  · exact .refl s

theorem executeTelegram_ages (s : State) (t : Telegram) : AgesHeld s (s.executeTelegram t).1 := by
  unfold State.executeTelegram
  dsimp only
  split
  · exact takeOffer_ages s _ _
  · exact (executeHeld_ages _ s).trans (.of_out rfl)

theorem endHeld_ages (s : State) (t : Telegram) (good : Bool) : AgesHeld s (s.endHeld t good) := by
  unfold State.endHeld
  split
  · exact .of_out rfl
  · split
    · exact (((executeTelegram_ages s t).trans (lineWork_ages (State.enterFifo_work _ _))).trans (.of_out rfl)).trans
        (fixRestartPoint_ages _)
    · exact (lineWork_ages (s.enterFifo_work _)).trans (.of_out rfl)

theorem endForward_ages (s : State) (t : Telegram) (good : Bool) (first : Byte) (c : LineChar) :
    AgesHeld s (s.endForward t good first c) := by
  unfold State.endForward
  split
  case h_1 => exact lineWork_ages (s.endPassing_work good first c)
  case h_2 => exact (endHeld_ages _ t good).of_same_out rfl
  all_goals exact .of_out rfl

theorem processWrite_work (s : State) (w : PendingWrite) : ChannelsWork s (s.processWrite w) := by
  unfold State.processWrite
  split
  · exact (s.feed_work _ _ _ _).toChannelsWork
  · exact .refl s

theorem processHolding_ages (s : State) (cycle : Byte) : AgesHeld s (s.processHolding cycle) := by
  have fed : AgesHeld s (s.map.holding.foldl State.processWrite s) :=
    channelsWork_ages (.foldl State.processWrite processWrite_work _ s)
  unfold State.processHolding
  dsimp only
  split <;> exact fed.trans (.of_out rfl)

theorem endData_ages (s : State) (cycle : Byte) (good : Bool) : AgesHeld s (s.endData cycle good) := by
  unfold State.endData
  split
  · exact (processHolding_ages s cycle).trans (loadsWork_ages (State.loadsAtEnd_work _))
  · exact .of_out rfl

theorem endTelegram_ages (s : State) (t : Telegram) (good : Bool) (first : Byte) (c : LineChar) :
    AgesHeld s (s.endTelegram t good first c) := by
  have forwarded := endForward_ages s t good first c
  unfold State.endTelegram
  dsimp only
  split
  case h_1 => exact forwarded.trans (endData_ages _ _ _)
  case h_2 =>
    split
    · exact (forwarded.trans (executeBroadcast_ages _ _)).trans (fixRestartPoint_ages _)
    · exact forwarded
  all_goals exact forwarded

theorem takeCheck2_ages (s : State) (t : Telegram) (first : Byte) (c : LineChar) : AgesHeld s (s.takeCheck2 t first c) := by
  unfold State.takeCheck2
  refine .trans ?_ (endTelegram_ages _ _ _ _ _)
  split <;> exact .of_out rfl

theorem takeCheck1_ages (s : State) (t : Telegram) (c : LineChar) : AgesHeld s (s.takeCheck1 t c) := by
  unfold State.takeCheck1
  dsimp only
  split
  case h_1 => exact (lineWork_ages (State.passChars_work _ _)).of_same_out rfl
  all_goals exact .of_out rfl

theorem takePayload_ages (s : State) (t : Telegram) (pos : Nat) (c : LineChar) : AgesHeld s (s.takePayload t pos c) := by
  have forwarded : AgesHeld s ((s.feedCheck c).forwardPayload t pos c) :=
    (lineWork_ages ((s.feedCheck c).forwardPayload_work t pos c)).of_same_out rfl
  refine forwarded.trans ?_
  unfold State.takePayload
  dsimp only
  split <;> exact .of_out rfl

theorem openData_ages (before s : State) (chars : List LineChar) (h0 h1 : Byte) (len : Nat) :
    AgesHeld s (State.openData before s chars h0 h1 len) := by
  unfold State.openData
  dsimp only
  split <;> exact .of_out rfl

theorem completeHeader_ages (s : State) (h0 h1 : Byte) (c : LineChar) : AgesHeld s (s.completeHeader h0 h1 c) := by
  have counted : AgesHeld s (if lengthAccepted (kindOf h0) c.data.toNat then s else s.countError .length) := by
    split
    · exact .refl s
    · exact .of_out rfl
  have released (u : State) (t : Treatment) (cs : List LineChar) : AgesHeld u (u.releaseHeader t cs) :=
    lineWork_ages (u.releaseHeader_work t cs)
  unfold State.completeHeader
  dsimp only
  generalize (if lengthAccepted (kindOf h0) c.data.toNat then s else s.countError .length) = u at counted ⊢
  refine counted.trans ?_
  split
  · exact ((released u _ _).trans (openData_ages u _ _ h0 h1 c.data.toNat)).trans (.of_out rfl)
  · exact (released u _ _).trans (.of_out rfl)

theorem takeHeader_ages (s : State) (h0 : Byte) (h1 : Option Byte) (c : LineChar) : AgesHeld s (s.takeHeader h0 h1 c) := by
  unfold State.takeHeader
  dsimp only
  split
  · exact .of_out rfl
  · exact (completeHeader_ages (s.feedCheck c) h0 _ c).of_same_out rfl

theorem abortTelegram_ages (s : State) (e : LineError) : AgesHeld s (s.abortTelegram e) := by
  obtain ⟨-, -, -, out, -⟩ := s.abortTelegram_frame e
  exact .of_out out

theorem inside_ages (s : State) (c : LineChar) (good : Bool) (take : State) (taken : AgesHeld s take) :
    AgesHeld s (s.inside c good take) := by
  unfold State.inside
  split
  · exact abortTelegram_ages s .framing
  · split
    · exact (abortTelegram_ages s .truncated).trans (.of_out rfl)
    · exact taken

theorem parse_ages (s : State) (c : LineChar) (good : Bool) : AgesHeld s (s.parse c good) := by
  unfold State.parse
  split
  · split
    · split <;> exact .of_out rfl
    · split
      · exact lineWork_ages (s.enterFifo_work [c])
      · exact .refl s
  · split
    · split <;> exact .of_out rfl
    · exact .refl s
  · exact inside_ages s c good _ (takeHeader_ages s _ _ c)
  · exact inside_ages s c good _ (takePayload_ages s _ _ c)
  · exact inside_ages s c good _ (takeCheck1_ages s _ c)
  · exact inside_ages s c good _ (takeCheck2_ages s _ _ c)

end Sys2Proof.Machine.Waveform
end

section
/-! PROOFS. An edge restarts the ages of its channel, and outside the ticks nothing but a restart changes them (R128). -/

open Sys2Proof Sys2Proof.Machine Sys2Proof.Machine.Forwarding

namespace Sys2Proof.Machine.Waveform

/-! ### Every command outside the ticks -/

/-- Work under a condition, and none without it. -/
theorem AgesHeld.guarded {s u : State} {p : Prop} [Decidable p] (held : AgesHeld s u) : AgesHeld s (if p then u else s) := by
  split
  · exact held
  · exact .refl s

theorem carried_ages {rule : Rule} (holds : HoldsAges rule) (via : Via) (permitted : Bool) (s : State) :
    AgesHeld s (carried via permitted rule s) := by
  cases via with
  | held => exact (holds .command s).trans (.of_out rfl)
  | broadcast => exact .guarded (holds .broadcast s)

theorem sampleTrip_ages (s : State) (v : Bool) : AgesHeld s (s.sampleTrip v) := by
  rcases s.sampleTrip_cases v with ⟨-, -, sampled⟩ | ⟨-, sampled⟩
  · rw [sampled]; exact .of_out rfl
  · rw [sampled]; exact .of_out rfl

theorem sampleInput_ages (s : State) (k : Fin 8) (v : Bool) : AgesHeld s (s.sampleInput k v) := .of_out rfl

theorem resetWith_out (s : State) (rate : BitVec 2) (n : Fin 6) : (s.resetWith rate).out[n] = .reset :=
  Vector.getElem_replicate n.isLt

theorem resetWith_ages (s : State) (rate : BitVec 2) : AgesHeld s (s.resetWith rate) := by
  intro n
  rw [resetWith_out]
  exact .inr ⟨rfl, rfl⟩

/-- A state reached by an event whose work holds the ages. -/
theorem event_ages {work : State → State} {s t : State} (ran : event work s = .next t) (held : AgesHeld s (work s)) :
    AgesHeld s t := by
  unfold event at ran
  split at ran
  · injection ran with result
    rw [← result]
    exact .refl s
  · injection ran with result
    rw [← result]
    exact held.trans (settleEdges_ages s _)

/-- A management row holds the ages when its rule does. -/
theorem row_ages {rule : Rule} {via : Via} {permitted : Bool} {s t : State} (holds : HoldsAges rule)
    (ran : event (carried via permitted rule) s = .next t) : AgesHeld s t :=
  event_ages ran (carried_ages holds via permitted s)

/-- Every command but the four rows of a tick. -/
theorem exec_ages (c : Instr) (s t : State) (ticks : (∀ b, c ≠ .timebaseTick b) ∧ (∀ b, c ≠ .periodBoundary b) ∧
    (∀ m, c ≠ .dutyMatch m) ∧ ∀ m side, c ≠ .deadTimeExpiry m side) (ran : exec c s = .next t) : AgesHeld s t := by
  obtain ⟨noTick, noBoundary, noMatch, noExpiry⟩ := ticks
  cases c with
  | timebaseTick b => exact absurd rfl (noTick b)
  | periodBoundary b => exact absurd rfl (noBoundary b)
  | dutyMatch m => exact absurd rfl (noMatch m)
  | deadTimeExpiry m side => exact absurd rfl (noExpiry m side)
  | rstnFall =>
    injection ran with result
    rw [← result]
    exact .of_out rfl
  | rstnRelease straps =>
    injection ran with result
    rw [← result]
    exact (resetWith_ages s straps).trans (.of_out rfl)
  | restartTakesEffect =>
    dsimp only [exec, execRestartTakesEffect] at ran
    exact event_ages ran (.guarded ((resetWith_ages s s.lrx.rate).trans (.of_out rfl)))
  | characterReceived =>
    dsimp only [exec, execCharacterReceived] at ran
    exact event_ages ran (.guarded ((parse_ages _ _ _).of_same_out rfl))
  | gapTimeout =>
    dsimp only [exec, execGapTimeout] at ran
    exact event_ages ran (.guarded (abortTelegram_ages s .gap))
  | transmitCharacter time =>
    dsimp only [exec, execTransmitCharacter] at ran
    obtain ⟨-, -, out, -⟩ := beginSending_blocks s time
    exact event_ages ran (.of_out out)
  | characterSent time =>
    dsimp only [exec, execCharacterSent] at ran
    refine event_ages ran ?_
    split
    · obtain ⟨-, -, out, -⟩ := beginSending_blocks { s with
        fwd.txo := .idle, mge.restart := s.mge.restart.map (·.sent) } time
      exact .guarded (.of_out out)
    · exact .refl s
  | assign =>
    dsimp only [exec, execAssign] at ran
    exact event_ages ran (.guarded (takeOffer_ages s _ _))
  | lineIdle =>
    dsimp only [exec, execLineIdle] at ran
    exact event_ages ran (.guarded (.of_out rfl))
  | startBitEdge =>
    dsimp only [exec, execStartBitEdge] at ran
    exact event_ages ran (.guarded (.of_out rfl))
  | startBitSample level =>
    dsimp only [exec, execStartBitSample] at ran
    refine event_ages ran (.guarded ?_)
    split <;> exact .of_out rfl
  | sampleInstant tripn inputs =>
    dsimp only [exec, execSampleInstant] at ran
    exact event_ages ran ((sampleTrip_ages s tripn).trans (.foldl _ (fun u k => sampleInput_ages u k _) _ _))
  | filteredLevelChange line =>
    dsimp only [exec, execFilteredLevelChange] at ran
    refine event_ages ran ?_
    cases line with
    | trip => exact .guarded (sampleTrip_ages s _)
    | input k => exact .guarded (sampleInput_ages s k _)
  | identify | readStatus | readCounters | clearCounters | force | releaseAddress =>
    exact row_ages (fun _ _ => .of_out rfl) ran
  | acknowledgeAttention => exact row_ages (acknowledgeAttention_ages _) ran
  | readParameter => exact row_ages (readParameter_ages _) ran
  | writeParameter => exact row_ages (writeParameter_ages _ _) ran
  | writeAttentionMask _ v => exact row_ages (write_ages .attentionMask v) ran
  | writeTripFilter _ v => exact row_ages (write_ages .tripFilter v) ran
  | writeInputFilter _ k v => exact row_ages (write_ages (.inputFilter k) v) ran
  | writePeriod _ b v => exact row_ages (write_ages (.period b) v) ran
  | writePrescaler _ b v => exact row_ages (write_ages (.prescaler b) v) ran
  | writeDeadTime _ n v => exact row_ages (write_ages (.deadTime n) v) ran
  | writePolarity _ n v => exact row_ages (write_ages (.polarity n) v) ran
  | writeSafeLevels _ n v => exact row_ages (write_ages (.safeLevels n) v) ran
  | writeGate _ n v => exact row_ages (write_ages (.gate n) v) ran
  | writeTripEnable _ n v => exact row_ages (write_ages (.tripEnable n) v) ran
  | writeRingMode _ n v => exact row_ages (write_ages (.ringMode n) v) ran
  | writeRingDepth _ n v => exact row_ages (write_ages (.ringDepth n) v) ran
  | writeExceptionMask _ n v => exact row_ages (write_ages (.exceptionMask n) v) ran
  | writeMapEntry => exact row_ages (writeMapEntry_ages _ _) ran
  | readMapEntry => exact row_ages (readMapEntry_ages _ _) ran
  | writeConversionRecord => exact row_ages (writeConversionRecord_ages _ _) ran
  | readConversionRecord => exact row_ages (readConversionRecord_ages _ _) ran
  | commit => exact row_ages commit_ages ran
  | discardStaged => exact row_ages discardStaged_ages ran
  | enable => exact row_ages (enableChannels_ages _) ran
  | disable => exact row_ages (disableChannels_ages _) ran
  | clearFault => exact row_ages (clearFaultChannels_ages _) ran
  | clearFlags => exact row_ages (clearFlagsChannels_ages _) ran
  | start => exact row_ages (startTimebases_ages _) ran
  | stop => exact row_ages (stopTimebases_ages _) ran
  | pushSetpoint => exact row_ages (pushSetpoint_ages _ _ _ _) ran
  | clear => exact row_ages clearTrip_ages ran
  | loadSetup => exact row_ages (loadSetup_ages _ _) ran
  | loadStart => exact row_ages (loadStart_ages _) ran
  | loadCancel => exact row_ages (loadCancel_ages _) ran
  | loadStatus => exact row_ages (loadStatus_ages _) ran
  | restart via =>
    dsimp only [exec, execRestart] at ran
    exact event_ages ran ((carried_ages restart_ages via true s).trans (fixRestartPoint_ages _))

/-! ### Edges -/

/-- A restart of the ages moves no gated level. -/
theorem settleEdges_gated (s u : State) (n : Fin 6) : (settleEdges s u).gated n = u.gated n := by
  refine State.gated_congr n rfl rfl ?_ fun _ => rfl
  rw [settleEdges_out]
  split <;> rfl

theorem settleEdges_of_edge (s u : State) (n : Fin 6) (edge : s.gated n ≠ u.gated n) :
    (settleEdges s u).out[n] = u.out[n].restartAges := by
  rw [settleEdges_out, if_neg edge]

/-- RSTN_FALL makes no edge, RSTN_RELEASE leaves the reset values, and every other command is an event. -/
theorem exec_edge (c : Instr) (s t : State) (n : Fin 6) (high : s.released) (ran : exec c s = .next t)
    (edge : s.gated n ≠ t.gated n) : t.out[n].ageHi = 0 ∧ t.out[n].ageLo = 0 ∧ t.out[n].afterTrip = false := by
  by_cases fall : c = .rstnFall
  · subst fall
    injection ran with result
    subst result
    exact absurd (State.gated_same rfl rfl rfl rfl n).symm edge
  by_cases release : ∃ straps, c = .rstnRelease straps
  · obtain ⟨straps, rfl⟩ := release
    injection ran with result
    subst result
    rw [resetWith_out]
    exact ⟨rfl, rfl, rfl⟩
  obtain ⟨work, taken⟩ := exec_eq_event c fall (not_exists.mp release)
  rw [taken, event_high work s high] at ran
  injection ran with result
  subst result
  rw [settleEdges_gated] at edge
  rw [settleEdges_of_edge s _ n edge]
  exact ⟨rfl, rfl, rfl⟩

end Sys2Proof.Machine.Waveform

open Sys2Proof.Machine.Waveform

/-- Settles O11: the frame of an event restarts the ages at an edge, and the work of every command but the ticks keeps or restarts
them. -/
theorem edgesRestartTheAges : Obligations.EdgesRestartTheAges := fun c s t n high ran =>
  ⟨exec_edge c s t n high ran, fun tick boundary duty expiry =>
    exec_ages c s t ⟨tick, boundary, duty, expiry⟩ ran n⟩
end

section
/-! PROOFS. The pin levels of a pair: case by case as R133 gives them, and never both active
(R125, R126, R129, R131 to R133, R144). -/

open Sys2Proof Sys2Proof.Machine

namespace Sys2Proof.Machine.Waveform

/-! ### Polarity and safe levels (R131, R132) -/

theorem polarity_level_ne_highZ (p : Polarity) (driven : Bool) : p.level driven ≠ .highZ := by
  cases p <;> cases driven <;> decide

/-- A driven pin stands at the active level just when its output is logically active. -/
theorem polarity_level_eq_active (p : Polarity) (driven : Bool) : p.level driven = p.level true ↔ driven = true := by
  cases p <;> cases driven <;> decide

/-- A forced pin stands at the active level just when its safe level is ACTIVE. -/
theorem safeLevel_level_eq_active (p : Polarity) (l : SafeLevel) : l.level p = p.level true ↔ l = .active := by
  cases p <;> cases l <;> decide

/-! ### The pair (R133, R135) -/

/-- With at most one safe level ACTIVE the pair is safe: neither pin is driven while RSTn is low, forced pins stand at their
safe levels, and of the logical levels at most one is active. -/
theorem pairSafe_of_safeLevels (s : State) (n : Fin 6) (safe : ¬(s.out[n].safeHi = .active ∧ s.out[n].safeLo = .active)) :
    s.pairSafe n := by
  rintro ⟨hi, lo⟩
  cases high : s.pins.rstn with
  | false =>
    rw [State.pinHi, s.pinWith_low n .hi _ high] at hi
    exact polarity_level_ne_highZ _ _ hi.symm
  | true =>
    cases forced : s.forced n with
    | true =>
      obtain ⟨pinHi, pinLo⟩ := s.pins_forced n high forced
      rw [pinHi, safeLevel_level_eq_active] at hi
      rw [pinLo, safeLevel_level_eq_active] at lo
      exact safe ⟨hi, lo⟩
    | false =>
      obtain ⟨pinHi, pinLo⟩ := s.pins_driven n high forced
      rw [pinHi, polarity_level_eq_active] at hi
      rw [pinLo, polarity_level_eq_active] at lo
      exact s.logical_apart n ⟨hi, lo⟩

/-! ### Forced and driven channels (R133) -/

theorem forced_of_trip (s : State) (n : Fin 6) (latch : s.tiu.latch = true) (enable : s.tiu.enable[n] = true) :
    s.forced n = true := by
  simp only [State.forced, State.tripForced, latch, enable, Bool.and_self, Bool.true_or]

theorem forced_of_resting (s : State) (n : Fin 6)
    (rests : s.chn[n].state ≠ .running ∨ s.tb[timebaseOf n].state = .stopped) : s.forced n = true := by
  simp only [State.forced, Bool.or_assoc, Bool.or_eq_true, decide_eq_true_eq]
  exact .inr rests

theorem forced_eq_false (s : State) (n : Fin 6) (trip : s.tripForced n = false) (running : s.chn[n].state = .running)
    (ticking : s.tb[timebaseOf n].state = .running) : s.forced n = false := by
  simp [-Fin.getElem_fin, State.forced, trip, running, ticking]

theorem tripForced_eq_false (s : State) (n : Fin 6) (free : ¬(s.tiu.latch = true ∧ s.tiu.enable[n] = true)) :
    s.tripForced n = false := by
  rw [State.tripForced, Bool.eq_false_iff, ne_eq, Bool.and_eq_true]
  exact free

/-- TB0 serves channels 0 to 2, TB1 the others (R113). -/
theorem tb_timebaseOf (s : State) (n : Fin 6) : s.tb[timebaseOf n] = if n.val < 3 then s.tb[0] else s.tb[1] := by
  unfold timebaseOf
  split <;> rfl

/-! ### Between a CLEAR and an assertion of the trip at one moment (R144; log 20) -/

/-- A driven channel with the mark of a CLEAR stands at both inactive levels. -/
theorem pinBetween_of_marked (s : State) (n : Fin 6) (high : s.pins.rstn = true) (driven : s.forced n = false)
    (marked : s.out[n].afterTrip = true) :
    s.pinBetween n .hi = s.out[n].polHi.level false ∧ s.pinBetween n .lo = s.out[n].polLo.level false := by
  have pin (side : Side) : s.pinBetween n side = (s.out[n].polarity side).level false := by
    rw [State.pinBetween, marked, Bool.not_true, Bool.and_false, s.pinWith_driven n side _ high driven]
  exact ⟨pin .hi, pin .lo⟩

/-- A forced channel stands at its safe levels in either reading. -/
theorem pinBetween_of_forced (s : State) (n : Fin 6) (high : s.pins.rstn = true) (forced : s.forced n = true) :
    s.pinBetween n .hi = s.pinHi n ∧ s.pinBetween n .lo = s.pinLo n := by
  have pin (side : Side) (a b : Bool) : s.pinWith n side a = s.pinWith n side b := by
    rw [s.pinWith_forced n side a high forced, s.pinWith_forced n side b high forced]
  exact ⟨pin .hi _ _, pin .lo _ _⟩

end Sys2Proof.Machine.Waveform

open Sys2Proof.Machine.Waveform

/-- Settles O12: `Inv` keeps the safe levels from both being ACTIVE, and the pins follow the cases of R133. -/
theorem pairIsNeverActiveTogether : Obligations.PairIsNeverActiveTogether := by
  refine ⟨fun s n inv => pairSafe_of_safeLevels s n (inv.channels n).safe_levels, ⟨rfl, rfl, rfl, rfl⟩,
    fun p => ⟨rfl, rfl, rfl⟩, ?_⟩
  intro s n high c o b gated hi lo
  have timebase : s.tb[timebaseOf n] = b := tb_timebaseOf s n
  have level : s.gated n = gated := by
    simp only [State.gated, State.raw, timebase]
    rfl
  have logicalHi : s.logical n .hi = hi := by rw [State.logical, level]; rfl
  have logicalLo : s.logical n .lo = lo := by rw [State.logical, level]; rfl
  have driven (free : ¬(s.tiu.latch = true ∧ s.tiu.enable[n] = true)) (running : c.state = .running)
      (ticking : b.state = .running) : s.forced n = false :=
    forced_eq_false s n (tripForced_eq_false s n free) running (by rw [timebase]; exact ticking)
  refine ⟨fun latch enable => ?_, fun rests => ?_, fun free running ticking => ?_, logicalHi, logicalLo,
    fun free running ticking marked => ?_, fun same => ?_⟩
  · exact s.pins_forced n high (forced_of_trip s n latch enable)
  · exact s.pins_forced n high (forced_of_resting s n (by rw [timebase]; exact rests))
  · rw [← logicalHi, ← logicalLo]
    exact s.pins_driven n high (driven free running ticking)
  · exact pinBetween_of_marked s n high (driven free running ticking) marked
  · rcases same with unmarked | forced
    · exact s.pinBetween_of_unmarked n unmarked
    · exact pinBetween_of_forced s n high forced
end

section
/-! PROOFS. Samples of the nine filters: all at one instant, and the completing sample of one (R138, R139, R141; log 6). -/

open Sys2Proof Sys2Proof.Machine Sys2Proof.Machine.Forwarding

namespace Sys2Proof.Machine.Waveform

/-! ### The input pins (R138) -/

/-- The levels last seen at the input pins after a sample of one. -/
def withLevel (x : Byte) (k : Fin 8) (v : Bool) : Byte :=
  if v then x ||| (1#8 <<< k.val) else x &&& ~~~(1#8 <<< k.val)

theorem withLevel_getLsbD (x : Byte) (k j : Fin 8) (v : Bool) :
    (withLevel x k v).getLsbD j.val = if j = k then v else x.getLsbD j.val := by
  unfold withLevel
  have bit : (1#8 <<< k.val).getLsbD j.val = decide (j = k) := by
    revert j k
    decide
  cases v with
  | true =>
    rw [if_pos rfl, BitVec.getLsbD_or, bit]
    by_cases same : j = k <;> simp [same]
  | false =>
    rw [if_neg (by decide), BitVec.getLsbD_and, BitVec.getLsbD_not, bit]
    by_cases same : j = k <;> simp [same]

theorem sampleInput_eq (s : State) (k : Fin 8) (v : Bool) : s.sampleInput k v = { s with
    tiu := { s.tiu with inputs := s.tiu.inputs.set k (s.tiu.inputs[k].sample v) }
    pins := { s.pins with inputs := withLevel s.pins.inputs k v } } := rfl

/-- The listed inputs sampled, each by its bit. -/
theorem foldl_sampleInput (levels : Byte) (l : List (Fin 8)) (distinct : l.Nodup) (s : State) :
    ∃ pins : Byte,
      (∀ j : Fin 8, pins.getLsbD j.val = if l.contains j then levels.getLsbD j.val else s.pins.inputs.getLsbD j.val) ∧
      l.foldl (fun u k => u.sampleInput k (levels.getLsbD k.val)) s = { s with
        tiu := { s.tiu with
          inputs := Vector.ofFn fun k : Fin 8 =>
            if l.contains k then s.tiu.inputs[k].sample (levels.getLsbD k.val) else s.tiu.inputs[k] }
        pins := { s.pins with inputs := pins } } := by
  induction l generalizing s with
  | nil =>
    refine ⟨s.pins.inputs, fun j => rfl, ?_⟩
    simp only [List.foldl_nil, List.contains_nil, Bool.false_eq_true, if_false, Fin.getElem_fin, Vector.ofFn_getElem]
  | cons m l ih =>
    obtain ⟨outside, rest⟩ := List.nodup_cons.mp distinct
    have apart : l.contains m = false := by simpa using outside
    obtain ⟨pins, bits, folded⟩ := ih rest (s.sampleInput m (levels.getLsbD m.val))
    have sampled (k : Fin 8) : (s.sampleInput m (levels.getLsbD m.val)).tiu.inputs[k] =
        if k = m then s.tiu.inputs[m].sample (levels.getLsbD m.val) else s.tiu.inputs[k] := by
      simp only [sampleInput_eq, Fin.getElem_fin, Vector.getElem_set, Fin.ext_iff, eq_comm]
    have seen (j : Fin 8) : (s.sampleInput m (levels.getLsbD m.val)).pins.inputs.getLsbD j.val =
        if j = m then levels.getLsbD m.val else s.pins.inputs.getLsbD j.val := withLevel_getLsbD _ m j _
    refine ⟨pins, fun j => ?_, ?_⟩
    · rw [bits, seen, List.contains_cons]
      by_cases same : j = m <;> simp [same]
    · have step (k : Fin 8) : (if l.contains k
            then (s.sampleInput m (levels.getLsbD m.val)).tiu.inputs[k].sample (levels.getLsbD k.val)
            else (s.sampleInput m (levels.getLsbD m.val)).tiu.inputs[k]) =
          if (m :: l).contains k then s.tiu.inputs[k].sample (levels.getLsbD k.val) else s.tiu.inputs[k] := by
        rw [sampled, List.contains_cons]
        by_cases same : k = m
        · simp [-Fin.getElem_fin, same, outside]
        · simp [-Fin.getElem_fin, same]
      rw [List.foldl_cons, folded]
      simp only [step]
      rfl

/-- All eight inputs sampled at one instant. -/
theorem sampleInputs_eq (s : State) (levels : Byte) :
    ([0, 1, 2, 3, 4, 5, 6, 7] : List (Fin 8)).foldl (fun u k => u.sampleInput k (levels.getLsbD k.val)) s = { s with
      tiu := { s.tiu with inputs := Vector.ofFn fun k : Fin 8 => s.tiu.inputs[k].sample (levels.getLsbD k.val) }
      pins := { s.pins with inputs := levels } } := by
  have every : ∀ k : Fin 8, ([0, 1, 2, 3, 4, 5, 6, 7] : List (Fin 8)).contains k = true := by decide
  obtain ⟨pins, bits, sampled⟩ := foldl_sampleInput levels [0, 1, 2, 3, 4, 5, 6, 7] (by decide) s
  have seen : pins = levels := by
    refine BitVec.eq_of_getLsbD_eq fun i small => ?_
    rw [bits ⟨i, small⟩, every, if_pos rfl]
  simp only [sampled, every, if_true, seen]

/-! ### TRIPn and the latch (R141) -/

/-- A sample of TRIPn as one update: the change to asserted sets the latch and the flag TRIP. -/
theorem sampleTrip_eq (s : State) (v : Bool) :
    let f := s.tiu.trip.sample v
    let fell := s.tiu.trip.level && !f.level
    s.sampleTrip v = { s with
      tiu := { s.tiu with trip := f, latch := s.tiu.latch || fell }
      mge := { s.mge with flags := if fell then s.mge.flags ||| 0x40 else s.mge.flags }
      pins := { s.pins with tripn := v } } := by
  intro f fell
  have fell_iff : fell = true ↔ s.tiu.trip.level = true ∧ f.level = false := by
    simp only [fell, Bool.and_eq_true, Bool.not_eq_true']
  rcases s.sampleTrip_cases v with ⟨before, after, sampled⟩ | ⟨steady, sampled⟩
  · rw [sampled, fell_iff.mpr ⟨before, after⟩, State.setTrip_eq, Bool.or_true]
    rfl
  · rw [sampled, Bool.eq_false_iff.mpr fun changed => steady (fell_iff.mp changed), Bool.or_false]
    rfl

/-! ### The completing sample of one filter (R139; log 6) -/

theorem atLength_iff (f : Machine.Filter) : f.atLength = true ↔ filterLength f.code ≤ f.run + 1 := decide_eq_true_iff

theorem sample_completing (f : Machine.Filter) (last : f.atLength = true) :
    f.sample (!f.level) = { f with level := !f.level, run := 0 } := by
  rw [Machine.Filter.sample, if_neg (by rw [Bool.not_eq_self]; exact id), if_neg (Nat.not_lt.mpr ((atLength_iff f).mp last))]

section
variable (s : State) (high : s.released)
include high

theorem exec_sampleInstant (tripn : Bool) (levels : Byte) :
    let f := s.tiu.trip.sample tripn
    let fell := s.tiu.trip.level && !f.level
    exec (.sampleInstant tripn levels) s = .next (settleEdges s { s with
      tiu := { s.tiu with
        trip := f
        inputs := Vector.ofFn fun k : Fin 8 => s.tiu.inputs[k].sample (levels.getLsbD k.val)
        latch := s.tiu.latch || fell }
      mge := { s.mge with flags := if fell then s.mge.flags ||| 0x40 else s.mge.flags }
      pins := { s.pins with tripn := tripn, inputs := levels } }) := by
  intro f fell
  show execSampleInstant tripn levels s = _
  rw [execSampleInstant, event_high _ s high, sampleInputs_eq, sampleTrip_eq]

/-- The filtered trip input bears on no gated level, so its change makes no edge. -/
theorem exec_tripChange (last : s.tiu.trip.atLength = true) :
    exec (.filteredLevelChange .trip) s = .next { s with
      tiu := { s.tiu with
        trip := { s.tiu.trip with level := !s.tiu.trip.level, run := 0 }
        latch := s.tiu.latch || s.tiu.trip.level }
      mge := { s.mge with flags := if s.tiu.trip.level then s.mge.flags ||| 0x40 else s.mge.flags }
      pins := { s.pins with tripn := !s.tiu.trip.level } } := by
  show execFilteredLevelChange .trip s = _
  rw [execFilteredLevelChange, event_high _ s high]
  simp only [if_pos last, sampleTrip_eq, sample_completing _ last, Bool.not_not, Bool.and_self]
  exact congrArg _ (settleEdges_of_same s _ fun n => State.gated_congr n rfl rfl rfl fun _ => rfl)

theorem exec_inputChange (k : Fin 8) (last : s.tiu.inputs[k].atLength = true) :
    exec (.filteredLevelChange (.input k)) s = .next (settleEdges s (s.sampleInput k (!s.tiu.inputs[k].level))) := by
  show execFilteredLevelChange (.input k) s = _
  rw [execFilteredLevelChange, event_high _ s high]
  simp only [if_pos last]

end

/-! Where the next sample completes no run, the row names nothing (log 3). -/

theorem exec_tripChange_early (s : State) (early : s.tiu.trip.atLength = false) :
    exec (.filteredLevelChange .trip) s = .next s := by
  show execFilteredLevelChange .trip s = _
  exact event_of_self _ s (if_neg (Bool.eq_false_iff.mp early))

theorem exec_inputChange_early (s : State) (k : Fin 8) (early : s.tiu.inputs[k].atLength = false) :
    exec (.filteredLevelChange (.input k)) s = .next s := by
  show execFilteredLevelChange (.input k) s = _
  exact event_of_self _ s (if_neg (Bool.eq_false_iff.mp early))

end Sys2Proof.Machine.Waveform

open Sys2Proof.Machine.Waveform

/-- Settles O23: the fold over the inputs is one update, and a completing sample is a sample. -/
theorem samplesReachFiltersLatchAndGates : Obligations.SamplesReachFiltersLatchAndGates := by
  intro s high
  have completing (f : Machine.Filter) (last : f.run + 1 = filterLength f.code) : f.atLength = true :=
    (atLength_iff f).mpr (Nat.le_of_eq last.symm)
  have early (f : Machine.Filter) (inside : f.run + 1 < filterLength f.code) : f.atLength = false :=
    Bool.eq_false_iff.mpr fun last => Nat.not_le.mpr inside ((atLength_iff f).mp last)
  refine ⟨exec_sampleInstant s high, fun last => exec_tripChange s high (completing _ last), fun k last => ?_,
    fun inside => exec_tripChange_early s (early _ inside),
    fun k inside => exec_inputChange_early s k (early _ inside)⟩
  refine ⟨withLevel s.pins.inputs k (!s.tiu.inputs[k].level), ?_, fun j => withLevel_getLsbD _ k j _⟩
  rw [exec_inputChange s high k (completing _ last), sampleInput_eq, sample_completing _ (completing _ last)]
end

section
/-! PROOFS. Writes of the dead time, the polarity, the safe levels and the gate: the tests in their order, and the setting replaced
(R127, R130 to R132). -/

open Sys2Proof Sys2Proof.Machine Sys2Proof.Machine.Setpoints Sys2Proof.Machine.Timebases

namespace Sys2Proof.Machine.Waveform

/-! ### Reserved bits and codes (R127, R132, R182) -/

theorem reserved_gate_iff (v : Word) : v &&& 0xFFFFFFE0 ≠ 0 ↔ 32 ≤ v.toNat :=
  (not_congr (and_highBits_eq_zero_iff v 5)).trans Nat.not_lt

theorem safeLevelOf_code (l : SafeLevel) : safeLevelOf l.code = some l := by cases l <;> rfl

theorem code_of_safeLevelOf (code : Nat) (l : SafeLevel) (h : safeLevelOf code = some l) : l.code = code := by
  unfold safeLevelOf at h
  split at h <;> cases h <;> rfl

theorem safeLevel_code_le (l : SafeLevel) : l.code ≤ 2 := by cases l <;> decide

theorem eq_active_of_code (l : SafeLevel) (h : l.code = 1) : l = .active := by
  cases l with
  | active => rfl
  | inactive | float => exact nomatch h

theorem gateOf_input (v : Word) (input : v.getLsbD 3 = true) :
    gateOf v = some (.input (Fin.ofNat 8 v.toNat) (!v.getLsbD 4)) := by
  rw [gateOf, if_pos input]

theorem gateOf_unknown (v : Word) (small : v.toNat < 32) (other : v.getLsbD 3 = false) (named : v ≠ 0) : gateOf v = none := by
  have low : v &&& 0x1F = v := by
    refine BitVec.eq_of_toNat_eq ?_
    rw [BitVec.toNat_and]
    exact (Nat.and_two_pow_sub_one_eq_mod v.toNat 5).trans (Nat.mod_eq_of_lt small)
  rw [gateOf, other, if_neg (by decide), low, if_neg named]

/-! ### The rules -/

section
variable (n : Fin 6) (v : Word) (o : Origin) (s : State)

theorem writeDeadTime_eq : writeDeadTime n v o s =
    if 256 ≤ v.toNat then refuse .reservedField s
    else doneWith (s.setOutput n { s.out[n] with stagedDeadTime := v.toNat }) := by
  simp only [writeDeadTime, reserved_byte_iff]

theorem writePolarity_eq : writePolarity n v o s =
    if 4 ≤ v.toNat then refuse .reservedField s
    else if s.chn[n].state ≠ .disabled then refuse .wrongState s
    else doneWith (s.setOutput n
      { s.out[n] with polHi := polarityOf (v.getLsbD 0), polLo := polarityOf (v.getLsbD 1) }) := by
  simp only [writePolarity, reserved_pair_iff]

theorem writeSafeLevels_reserved (large : 16 ≤ v.toNat) : writeSafeLevels n v o s = refuse .reservedField s :=
  if_pos ((reserved_nibble_iff v).mpr large)

/-- An undefined code for either output, or ACTIVE for both, is refused. -/
theorem writeSafeLevels_refused (small : v.toNat < 16) (bad : v.toNat % 4 = 3 ∨ v.toNat / 4 = 3 ∨ v.toNat = 5) :
    writeSafeLevels n v o s = refuse .badArgument s := by
  rw [writeSafeLevels, if_neg (mt (reserved_nibble_iff v).mp (by omega))]
  split
  next hi lo first second =>
    have hiCode := code_of_safeLevelOf _ _ first
    have loCode := code_of_safeLevelOf _ _ second
    have hiSmall := safeLevel_code_le hi
    have loSmall := safeLevel_code_le lo
    exact if_pos ⟨eq_active_of_code hi (by omega), eq_active_of_code lo (by omega)⟩
  next => rfl

theorem writeSafeLevels_taken (hi lo : SafeLevel) (apart : ¬(hi = .active ∧ lo = .active))
    (value : v = BitVec.ofNat 32 (hi.code + 4 * lo.code)) :
    writeSafeLevels n v o s = doneWith (s.setOutput n { s.out[n] with safeHi := hi, safeLo := lo }) := by
  have hiSmall := safeLevel_code_le hi
  have loSmall := safeLevel_code_le lo
  have number : v.toNat = hi.code + 4 * lo.code := by
    rw [value, BitVec.toNat_ofNat, Nat.mod_eq_of_lt (by omega)]
  have first : v.toNat % 4 = hi.code := by omega
  have second : v.toNat / 4 = lo.code := by omega
  rw [writeSafeLevels, if_neg (mt (reserved_nibble_iff v).mp (by omega)), first, second, safeLevelOf_code, safeLevelOf_code]
  exact if_neg apart

theorem writeGate_reserved (large : 32 ≤ v.toNat) : writeGate n v o s = refuse .reservedField s :=
  if_pos ((reserved_gate_iff v).mpr large)

theorem writeGate_unknown (small : v.toNat < 32) (h : gateOf v = none) : writeGate n v o s = refuse .badArgument s := by
  rw [writeGate, if_neg (mt (reserved_gate_iff v).mp (by omega)), h]

theorem writeGate_taken (g : Gate) (small : v.toNat < 32) (h : gateOf v = some g) :
    writeGate n v o s = doneWith (s.setOutput n { s.out[n] with gate := g }) := by
  rw [writeGate, if_neg (mt (reserved_gate_iff v).mp (by omega)), h]

end

/-! ### The row: a setting other than the gate makes no edge -/

theorem event_held_setOutput (rule : Rule) (s : State) (n : Fin 6) (high : s.released) (x : Output)
    (gate : x.gate = s.out[n].gate) (h : rule .command s = doneWith (s.setOutput n x)) :
    event (carried .held false rule) s = .next ((s.setOutput n x).answered .done) := by
  refine event_held_of_same rule s high _ (fun m => State.gated_congr m rfl rfl ?_ fun _ => rfl) h
  rw [State.setOutput_get]
  split
  next same => rw [same]; exact gate
  next => rfl

end Sys2Proof.Machine.Waveform

open Sys2Proof.Machine.Waveform

/-- Settles O26: each range of the value and each state takes one branch of its rule. -/
theorem outputParameterWrites : Obligations.OutputParameterWrites := by
  refine ⟨rfl, ?_⟩
  intro s n value high put
  have refused (rule : Rule) (result : Result) (h : rule .command s = refuse result s) :
      event (carried .held false rule) s = .next (s.answered result) := event_held_refused false rule s high h
  refine ⟨fun large => ?_, fun small => ?_, fun large => ?_, fun small other => ?_, fun small disabled => ?_, fun large => ?_,
    fun small bad => ?_, fun hi lo apart code => ?_, fun large => ?_, fun small other named => ?_, fun zero => ?_,
    fun small input => ?_⟩
  · exact refused (writeDeadTime n value) _ ((writeDeadTime_eq n value _ s).trans (if_pos large))
  · exact event_held_setOutput (writeDeadTime n value) s n high _ rfl
      ((writeDeadTime_eq n value _ s).trans (if_neg (Nat.not_le.mpr small)))
  · exact refused (writePolarity n value) _ ((writePolarity_eq n value _ s).trans (if_pos large))
  · refine refused (writePolarity n value) _ ?_
    rw [writePolarity_eq, if_neg (Nat.not_le.mpr small), if_pos other]
  · refine event_held_setOutput (writePolarity n value) s n high
      { s.out[n] with polHi := polarityOf (value.getLsbD 0), polLo := polarityOf (value.getLsbD 1) } rfl ?_
    rw [writePolarity_eq, if_neg (Nat.not_le.mpr small), if_neg (fun other => other disabled)]
  · exact refused (writeSafeLevels n value) _ (writeSafeLevels_reserved n value _ s large)
  · exact refused (writeSafeLevels n value) _ (writeSafeLevels_refused n value _ s small bad)
  · exact event_held_setOutput (writeSafeLevels n value) s n high _ rfl (writeSafeLevels_taken n value _ s hi lo apart code)
  · exact refused (writeGate n value) _ (writeGate_reserved n value _ s large)
  · exact refused (writeGate n value) _ (writeGate_unknown n value _ s small (gateOf_unknown value small other named))
  · subst zero
    exact event_held_done false (writeGate n 0) s high (writeGate_taken n 0 _ s .none (by decide) rfl)
  · refine ⟨Fin.ofNat 8 value.toNat, rfl, ?_⟩
    exact event_held_done false (writeGate n value) s high (writeGate_taken n value _ s _ small (gateOf_input value input))
end

section
/-! PROOFS. FORCE, CLEAR and TRIP_ENABLE: the latch, the ages where trip forcing ends, and the pins after a CLEAR and an
assertion at one moment (R128, R133, R141 to R145). -/

open Sys2Proof Sys2Proof.Machine Sys2Proof.Machine.Setpoints Sys2Proof.Machine.Timebases Sys2Proof.Machine.Channels

namespace Sys2Proof.Machine.Waveform

/-! ### Rows that make no edge (R168, R171) -/

theorem event_taken (rule : Rule) (s u : State) (reply : List Byte) (high : s.released)
    (same : ∀ n : Fin 6, u.gated n = s.gated n) (h : ∀ o, rule o s = doneWith u reply) :
    event (carried .held true rule) s = .next (u.answered .done reply) ∧
    event (carried .broadcast true rule) s = .next u := by
  rw [event_high _ s high, event_high _ s high, carried_held, carried_broadcast, h, h]
  exact ⟨congrArg _ (settleEdges_of_same s (u.answered .done reply) same), congrArg _ (settleEdges_of_same s u same)⟩

/-! ### The trip status (R149) -/

theorem tripByte_eq (s : State) : s.tripByte =
    if s.tiu.trip.level then (if s.tiu.latch then 1 else 0) else (if s.tiu.latch then 3 else 2) := by
  unfold State.tripByte Tiu.status
  cases s.tiu.trip.level <;> cases s.tiu.latch <;> rfl

/-! ### FORCE (R142) -/

theorem forceTrip_eq (o : Origin) (s : State) :
    forceTrip o s = doneWith s.setTrip [if s.tiu.trip.level then 1 else 3] := by
  rw [forceTrip, tripByte_eq]
  rfl

/-! ### CLEAR (R143, R144) -/

theorem endForcing_get (s : State) (n m : Fin 6) :
    (s.endForcing n).out[m] = if m = n then s.out[m].endForcing else s.out[m] := by
  rw [State.endForcing, State.setOutput_get]
  split
  next same => rw [same]
  next => rfl

/-- Trip forcing ended for those of the listed channels that it forced. -/
theorem foldl_endForcing (forced : Fin 6 → Bool) (l : List (Fin 6)) (s : State) :
    l.foldl (fun u n => if forced n then u.endForcing n else u) s = { s with
      out := Vector.ofFn fun n : Fin 6 => if l.contains n && forced n then s.out[n].endForcing else s.out[n] } := by
  induction l generalizing s with
  | nil =>
    simp only [List.foldl_nil, List.contains_nil, Bool.false_and, Bool.false_eq_true, if_false, Fin.getElem_fin,
      Vector.ofFn_getElem]
  | cons m l ih =>
    rw [List.foldl_cons, ih]
    cases marked : forced m with
    | true =>
      have step (n : Fin 6) : (if l.contains n && forced n then (s.endForcing m).out[n].endForcing
          else (s.endForcing m).out[n]) = if (m :: l).contains n && forced n then s.out[n].endForcing else s.out[n] := by
        rw [endForcing_get, List.contains_cons]
        by_cases same : n = m
        · subst same
          simp only [marked, Bool.and_true, if_true, beq_self_eq_true, Bool.true_or]
          split <;> rfl
        · rw [if_neg same, beq_false_of_ne same, Bool.false_or]
      simp only [if_true, step]
      rfl
    | false =>
      have step (n : Fin 6) : (l.contains n && forced n) = ((m :: l).contains n && forced n) := by
        rw [List.contains_cons]
        by_cases same : n = m
        · rw [same, marked, Bool.and_false, Bool.and_false]
        · rw [beq_false_of_ne same, Bool.false_or]
      simp only [Bool.false_eq_true, if_false, step]

section
variable (s : State)

/-- CLEAR as one update: the latch, and the outputs whose trip forcing ends. -/
theorem clearTrip_eq : s.clearTrip = { s with
    tiu := { s.tiu with latch := false }
    out := Vector.ofFn fun n : Fin 6 =>
      if s.tiu.latch && s.tiu.enable[n] then { s.out[n] with ageHi := 0, ageLo := 0, afterTrip := true } else s.out[n] } := by
  have every : ∀ n : Fin 6, allChannels.contains n = true := by decide
  rw [State.clearTrip, foldl_endForcing]
  simp only [every, Bool.true_and]
  rfl

theorem clearTrip_latch : s.clearTrip.tiu = { s.tiu with latch := false } := by rw [clearTrip_eq]

theorem clearTrip_out (n : Fin 6) :
    s.clearTrip.out[n] = if s.tripForced n then s.out[n].endForcing else s.out[n] := by
  rw [clearTrip_eq]
  simp only [Fin.getElem_fin, Vector.getElem_ofFn]
  rfl

theorem clearTrip_gated (n : Fin 6) : s.clearTrip.gated n = s.gated n := by
  refine State.gated_congr n (by rw [clearTrip_eq]) (by rw [clearTrip_eq]) ?_ fun _ => by rw [clearTrip_eq]
  rw [clearTrip_out]
  split <;> rfl

theorem clearTrip_done (o : Origin) (level : s.tiu.trip.level = true) : clearTrip o s = doneWith s.clearTrip [0] := by
  rw [clearTrip, level, if_neg (by decide), tripByte_eq, clearTrip_latch, level]
  rfl

theorem clearTrip_refused (o : Origin) (level : s.tiu.trip.level = false) :
    clearTrip o s = refuse .tripActive s [if s.tiu.latch then 3 else 2] := by
  rw [clearTrip, if_pos level, tripByte_eq, level]
  rfl

end

/-! ### Logical levels where trip forcing ends (R129, R143) -/

/-- With both ages at 0 an output is active only at a dead time of 0, and then the one of the gated level. -/
theorem logical_of_restarted (s u : State) (n : Fin 6) (gated : u.gated n = s.gated n)
    (chn : u.chn = s.chn) (ages : u.out[n].ageHi = 0 ∧ u.out[n].ageLo = 0) :
    u.logical n .hi = (s.gated n && decide (s.chn[n].deadTime = 0)) ∧
    u.logical n .lo = (!s.gated n && decide (s.chn[n].deadTime = 0)) := by
  obtain ⟨hi, lo⟩ := ages
  simp only [State.logical, Output.ready, Output.age, gated, chn, hi, lo, Nat.le_zero_eq, and_self]

/-! After a CLEAR that ended the trip forcing of a channel. -/

section
variable (s : State) (n : Fin 6) (latch : s.tiu.latch = true) (enable : s.tiu.enable[n] = true)
include latch enable

theorem clearTrip_out_of_forced : s.clearTrip.out[n] = s.out[n].endForcing := by
  rw [clearTrip_out, State.tripForced, latch, enable]
  rfl

theorem clearTrip_logical :
    s.clearTrip.logical n .hi = (s.gated n && decide (s.chn[n].deadTime = 0)) ∧
    s.clearTrip.logical n .lo = (!s.gated n && decide (s.chn[n].deadTime = 0)) := by
  refine logical_of_restarted s s.clearTrip n (clearTrip_gated s n) (by rw [clearTrip_eq]) ?_
  rw [clearTrip_out_of_forced s n latch enable]
  exact ⟨rfl, rfl⟩

/-- A driven channel stands at both inactive levels in the one reading, and at its logical levels in the other (log 20). -/
theorem clearTrip_pins (high : s.released) (running : s.chn[n].state = .running)
    (ticking : s.tb[timebaseOf n].state = .running) :
    s.clearTrip.pinBetween n .hi = s.out[n].polHi.level false ∧ s.clearTrip.pinBetween n .lo = s.out[n].polLo.level false ∧
    s.clearTrip.pinHi n = s.out[n].polHi.level (s.gated n && decide (s.chn[n].deadTime = 0)) ∧
    s.clearTrip.pinLo n = s.out[n].polLo.level (!s.gated n && decide (s.chn[n].deadTime = 0)) := by
  have released : s.clearTrip.pins.rstn = true := by rw [clearTrip_eq]; exact high
  have out := clearTrip_out_of_forced s n latch enable
  have driven : s.clearTrip.forced n = false := by
    refine forced_eq_false s.clearTrip n ?_ (by rw [clearTrip_eq]; exact running) (by rw [clearTrip_eq]; exact ticking)
    rw [State.tripForced, clearTrip_latch, Bool.false_and]
  obtain ⟨betweenHi, betweenLo⟩ := pinBetween_of_marked s.clearTrip n released driven (by rw [out]; rfl)
  obtain ⟨pinHi, pinLo⟩ := s.clearTrip.pins_driven n released driven
  obtain ⟨logicalHi, logicalLo⟩ := clearTrip_logical s n latch enable
  rw [betweenHi, betweenLo, pinHi, pinLo, logicalHi, logicalLo, out]
  exact ⟨rfl, rfl, rfl, rfl⟩

end

/-! ### An assertion of the filtered trip input (R141, R144) -/

theorem settleEdges_out_cases (s u : State) (n : Fin 6) :
    (settleEdges s u).out[n] = u.out[n] ∨ (settleEdges s u).out[n] = u.out[n].restartAges := by
  rw [settleEdges_out]
  split
  · exact .inl rfl
  · exact .inr rfl

/-- The pins of an enabled channel stand, with the latch set after an event, at the safe levels it had before. -/
theorem pins_of_settled (u v : State) (n : Fin 6) (high : v.pins.rstn = true) (latch : v.tiu.latch = true)
    (enable : v.tiu.enable[n] = true) (out : v.out[n] = u.out[n] ∨ v.out[n] = u.out[n].restartAges) :
    v.pinHi n = u.out[n].safeHi.level u.out[n].polHi ∧ v.pinLo n = u.out[n].safeLo.level u.out[n].polLo := by
  obtain ⟨hi, lo⟩ := v.pins_forced n high (forced_of_trip v n latch enable)
  rw [hi, lo]
  rcases out with same | restarted
  · rw [same]; exact ⟨rfl, rfl⟩
  · rw [restarted]; exact ⟨rfl, rfl⟩

/-- Both rows that can assert the filtered trip input set the latch and force the pins of the enabled channels. -/
theorem exec_assertion (u : State) (c : Instr) (high : u.released) (level : u.tiu.trip.level = true)
    (last : u.tiu.trip.atLength = true) (row : c = .filteredLevelChange .trip ∨ ∃ inputs, c = .sampleInstant false inputs) :
    ∃ v, exec c u = .next v ∧ v.tiu.latch = true ∧ ∀ n : Fin 6, u.tiu.enable[n] = true →
      v.pinHi n = u.out[n].safeHi.level u.out[n].polHi ∧ v.pinLo n = u.out[n].safeLo.level u.out[n].polLo := by
  rcases row with rfl | ⟨inputs, rfl⟩
  · have latch : (u.tiu.latch || u.tiu.trip.level) = true := by rw [level, Bool.or_true]
    exact ⟨_, exec_tripChange u high last, latch, fun n enable => pins_of_settled u _ n high latch enable (.inl rfl)⟩
  · have sampled : (u.tiu.trip.sample false).level = false := by
      have completing := sample_completing u.tiu.trip last
      rw [level, Bool.not_true] at completing
      rw [completing]
    have latch : (u.tiu.latch || (u.tiu.trip.level && !(u.tiu.trip.sample false).level)) = true := by
      rw [level, sampled, Bool.not_false, Bool.and_self, Bool.or_true]
    exact ⟨_, exec_sampleInstant u high false inputs, latch, fun n enable =>
      pins_of_settled u _ n high latch enable (settleEdges_out_cases u _ n)⟩

/-! ### TRIP_ENABLE (R145) -/

theorem reserved_bit_iff (v : Word) : v &&& 0xFFFFFFFE ≠ 0 ↔ 2 ≤ v.toNat :=
  (not_congr (and_highBits_eq_zero_iff v 1)).trans Nat.not_lt

section
variable (s : State) (n : Fin 6)

theorem writeTripEnable_eq (v : Word) (o : Origin) : writeTripEnable n v o s =
    if 2 ≤ v.toNat then refuse .reservedField s else doneWith (s.setTripEnable n (v.getLsbD 0)) := by
  simp only [writeTripEnable, reserved_bit_iff]

theorem setTripEnable_eq (on : Bool) : s.setTripEnable n on = { s with
    tiu := { s.tiu with enable := s.tiu.enable.set n on }
    out := if s.tiu.latch && s.tiu.enable[n] && !on then
      s.out.set n { s.out[n] with ageHi := 0, ageLo := 0, afterTrip := false } else s.out } := by
  unfold State.setTripEnable State.tripForced
  cases s.tiu.latch && s.tiu.enable[n] && !on <;> rfl

theorem setTripEnable_out (on : Bool) (m : Fin 6) : (s.setTripEnable n on).out[m] =
    if m = n ∧ s.tripForced n = true ∧ on = false then s.out[m].restartAges else s.out[m] := by
  unfold State.setTripEnable
  dsimp only
  split
  next ends =>
    obtain ⟨forced, off⟩ : s.tripForced n = true ∧ on = false := by simpa using ends
    rw [restartAges_get]
    simp only [forced, off, and_true]
  next kept =>
    refine (if_neg ?_).symm
    rintro ⟨-, forced, off⟩
    exact kept (by rw [forced, off]; rfl)

theorem setTripEnable_gated (on : Bool) (m : Fin 6) : (s.setTripEnable n on).gated m = s.gated m := by
  refine State.gated_congr m (by rw [setTripEnable_eq]) (by rw [setTripEnable_eq]) ?_ fun _ => by rw [setTripEnable_eq]
  rw [setTripEnable_out]
  split <;> rfl

theorem setTripEnable_logical (latch : s.tiu.latch = true) (enable : s.tiu.enable[n] = true) (on : Bool) (off : on = false) :
    (s.setTripEnable n on).logical n .hi = (s.gated n && decide (s.chn[n].deadTime = 0)) ∧
    (s.setTripEnable n on).logical n .lo = (!s.gated n && decide (s.chn[n].deadTime = 0)) := by
  have forced : s.tripForced n = true := by rw [State.tripForced, latch, enable]; rfl
  refine logical_of_restarted s _ n (setTripEnable_gated s n on n) (by rw [setTripEnable_eq]) ?_
  rw [setTripEnable_out, if_pos ⟨rfl, forced, off⟩]
  exact ⟨rfl, rfl⟩

end

end Sys2Proof.Machine.Waveform

open Sys2Proof.Machine.Waveform

/-- Settles O24: CLEAR folds to one update that marks the channels it frees; an assertion behind it sets the latch again. -/
theorem tripIsForcedClearedAndEnabled : Obligations.TripIsForcedClearedAndEnabled := by
  intro s high
  refine ⟨?_, fun level => ?_, fun level => ?_, fun n value => ⟨fun small => ?_, fun large => ?_⟩⟩
  · rintro u rfl
    obtain ⟨held, broadcast⟩ := event_taken forceTrip s s.setTrip _ high
      (fun n => State.gated_congr n rfl rfl rfl fun _ => rfl) (fun o => forceTrip_eq o s)
    exact ⟨held, broadcast, fun n enable => pins_of_settled s s.setTrip n high rfl enable (.inl rfl)⟩
  · intro u
    have cleared : s.clearTrip = u := clearTrip_eq s
    obtain ⟨held, broadcast⟩ := event_taken clearTrip s s.clearTrip [0] high (clearTrip_gated s)
      (fun o => clearTrip_done s o level)
    rw [← cleared]
    refine ⟨held, broadcast, fun n latch enable => clearTrip_logical s n latch enable, fun last c row => ?_⟩
    obtain ⟨v, ran, latched, safe⟩ := exec_assertion s.clearTrip c (by rw [clearTrip_eq]; exact high)
      (by rw [clearTrip_latch]; exact level) (by rw [clearTrip_latch]; exact (atLength_iff _).mpr last) row
    refine ⟨v, ran, latched, fun n latch enable => ⟨clearTrip_pins s n latch enable high, ?_⟩⟩
    have pins := safe n (by rw [clearTrip_latch]; exact enable)
    rw [clearTrip_out_of_forced s n latch enable] at pins
    exact pins
  · exact event_refused clearTrip s high (fun o => clearTrip_refused s o level)
  · intro on u
    have enabled : s.setTripEnable n on = u := setTripEnable_eq s n on
    rw [← enabled]
    refine ⟨event_held_of_same (writeTripEnable n value) s high _ (setTripEnable_gated s n on) ?_,
      fun latch enable off => setTripEnable_logical s n latch enable on off⟩
    rw [writeTripEnable_eq, if_neg (Nat.not_le.mpr small)]
  · refine event_held_refused false (writeTripEnable n value) s high ?_
    rw [writeTripEnable_eq, if_pos large]
end

section
/-! PROOFS. One sample of a filter, and a run of disagreeing samples of any length: the level changes at the N-th (R139). -/

open Sys2Proof Sys2Proof.Machine

namespace Sys2Proof.Machine.Waveform

/-! ### The three rows of the table of R139 -/

theorem sample_agreeing (f : Machine.Filter) : f.sample f.level = { f with run := 0 } := if_pos rfl

section
variable (f : Machine.Filter) {v : Bool} (differs : v ≠ f.level)
include differs

theorem sample_inside (inside : f.run + 1 < filterLength f.code) : f.sample v = { f with run := f.run + 1 } := by
  rw [Machine.Filter.sample, if_neg differs, if_pos inside]

theorem sample_last (last : f.run + 1 = filterLength f.code) : f.sample v = { f with level := v, run := 0 } := by
  rw [Bool.eq_not.mpr differs]
  exact sample_completing f ((atLength_iff f).mpr (Nat.le_of_eq last.symm))

/-! ### Runs of disagreeing samples -/

/-- Short of N the filter keeps its level, so that each further sample of the run disagrees as the first did. -/
theorem repeat_sample_inside (k : Nat) (inside : f.run + k < filterLength f.code) :
    Nat.repeat (fun g => g.sample v) k f = { f with run := f.run + k } := by
  induction k with
  | zero => rfl
  | succ k ih =>
    have sampled : Nat.repeat (fun g => g.sample v) k f = { f with run := f.run + k } := ih (Nat.lt_of_succ_lt inside)
    rw [Nat.repeat, sampled]
    exact sample_inside { f with run := f.run + k } differs inside

theorem repeat_sample_last (k : Nat) (last : f.run + k + 1 = filterLength f.code) :
    Nat.repeat (fun g => g.sample v) (k + 1) f = { f with level := v, run := 0 } := by
  have sampled : Nat.repeat (fun g => g.sample v) k f = { f with run := f.run + k } :=
    repeat_sample_inside f differs k (Nat.lt_of_succ_le (Nat.le_of_eq last))
  rw [Nat.repeat, sampled]
  exact sample_last { f with run := f.run + k } differs last

end

end Sys2Proof.Machine.Waveform

open Sys2Proof.Machine.Waveform

/-- Settles O22, by the rows of R139 and induction on the number of disagreeing samples. -/
theorem filterChangesAtTheNthDisagreeingSample : Obligations.FilterChangesAtTheNthDisagreeingSample := by
  intro f v
  refine ⟨?_, sample_inside f, sample_last f, repeat_sample_inside f, repeat_sample_last f, by decide⟩
  rintro rfl
  exact sample_agreeing f
end

section
/-! PROOFS. Judging a chunk by its index, and its records through the field-level check into the staged bank (R160, R161). -/

open Sys2Proof Sys2Proof.Machine

namespace Sys2Proof.Machine.Loads

/-! ### The records of a chunk (R161) -/

section
variable {d : Descriptor} {j e size : Nat} {bytes : List Byte} {m m' : MapUnit}

theorem writeRecords_past (past : d.limit ≤ e) : writeRecords d j bytes e m = ⟨m, e, true⟩ := by
  cases j with
  | zero => rfl
  | succ j => rw [writeRecords, if_neg (Nat.not_lt.mpr past)]

variable (inside : e < d.limit) (width : d.target.recordSize = size)
include inside width

theorem writeRecords_stored (stored : storeRecord d.target e (bytes.take size) m = some m') :
    writeRecords d (j + 1) bytes e m = writeRecords d j (bytes.drop size) (e + 1) m' := by
  subst width
  rw [writeRecords, if_pos inside, stored]

theorem writeRecords_failed (failed : storeRecord d.target e (bytes.take size) m = none) :
    writeRecords d (j + 1) bytes e m = ⟨m, e, false⟩ := by
  subst width
  rw [writeRecords, if_pos inside, failed]

end

theorem storeRecord_map {bytes : List Byte} {r : Except Result MapEntry} (i : Nat) (m : MapUnit)
    (decoded : decodeMapEntry (BitVec.ofNat 64 (leNat bytes)) = r) :
    storeRecord .map i bytes m = r.toOption.map (m.setStagedEntry i) := by
  rw [storeRecord, decoded]
  cases r <;> rfl

theorem storeRecord_conversion {bytes : List Byte} {r : Except Result ConvRecord} (i : Nat) (m : MapUnit)
    (decoded : decodeConvRecord (BitVec.ofNat 128 (leNat bytes)) = r) :
    storeRecord .conversion i bytes m = r.toOption.map (m.setStagedRecord i) := by
  rw [storeRecord, decoded]
  cases r <;> rfl

/-! ### The load channel after an expected chunk (R161) -/

section
variable (l : LoadChannel) {d : Descriptor} {w : Written}

theorem afterChunk_of_failed (failed : w.ok = false) :
    l.afterChunk d w = { l with state := .terminated, error := .record, next := w.next } := if_pos failed

theorem afterChunk_of_last (passed : w.ok = true) (last : w.next = d.limit) :
    l.afterChunk d w = { l with state := .complete, next := w.next } := by
  rw [LoadChannel.afterChunk, if_neg (by rw [passed]; decide), if_pos last]

theorem afterChunk_of_inner (passed : w.ok = true) (inner : w.next ≠ d.limit) :
    l.afterChunk d w = { l with next := w.next } := by
  rw [LoadChannel.afterChunk, if_neg (by rw [passed]; decide), if_neg inner]

end

/-! ### The chunk index (R160) -/

section
variable (s : State) (k : Fin 2)

theorem judge_of_no_capture (missing : s.lch[k].capture = none) : s.judge k = s := by
  simp only [State.judge, missing]

variable {d : Descriptor} {index : Byte} {records : List Byte} (descriptor : s.lch[k].descriptor = some d)
  (active : s.lch[k].state = .active) (capture : s.lch[k].capture = some (index :: records))
include descriptor active capture

theorem judge_of_captured : s.judge k =
    if index.toNat < s.lch[k].next then s
    else if s.lch[k].next < index.toNat then s.setLoad k { s.lch[k] with state := .terminated, error := .sequence }
    else State.setLoad { s with map := (writeRecords d d.perChunk records s.lch[k].next s.map).map } k
      (s.lch[k].afterChunk d (writeRecords d d.perChunk records s.lch[k].next s.map)) := by
  simp only [State.judge, capture, descriptor, active, ne_eq, not_true_eq_false, false_or]

theorem judge_of_repeated (repeated : index.toNat < s.lch[k].next) : s.judge k = s := by
  rw [judge_of_captured s k descriptor active capture, if_pos repeated]

theorem judge_of_ahead (ahead : s.lch[k].next < index.toNat) :
    s.judge k = s.setLoad k { s.lch[k] with state := .terminated, error := .sequence } := by
  rw [judge_of_captured s k descriptor active capture, if_neg (Nat.not_lt_of_lt ahead), if_pos ahead]

theorem judge_of_expected (expected : index.toNat = s.lch[k].next) :
    s.judge k = State.setLoad { s with map := (writeRecords d d.perChunk records s.lch[k].next s.map).map } k
      (s.lch[k].afterChunk d (writeRecords d d.perChunk records s.lch[k].next s.map)) := by
  rw [judge_of_captured s k descriptor active capture, if_neg (by omega), if_neg (by omega)]

end

end Sys2Proof.Machine.Loads

open Sys2Proof.Machine.Loads

/-- Settles O43: the three places of the chunk index, the three ends of an expected chunk, and one record at a time. -/
theorem chunksAreJudgedByTheirIndex : Obligations.ChunksAreJudgedByTheirIndex := by
  refine ⟨fun s k idle => ?_, fun s k d index records descriptor active capture => ⟨?_, ?_, fun expected => ?_⟩,
    fun d j e bytes m target inside _ => ⟨fun x decoded => ?_, fun x decoded => ?_⟩,
    fun d j e bytes m target inside _ => ⟨fun x decoded => ?_, fun x decoded => ?_⟩,
    fun _ _ _ _ => rfl, fun _ _ _ _ _ => writeRecords_past⟩
  · rcases idle with missing | left
    · exact judge_of_no_capture s k missing
    · exact s.judge_of_not_active k left
  · exact judge_of_repeated s k descriptor active capture
  · exact judge_of_ahead s k descriptor active capture
  · refine ⟨_, rfl, ?_⟩
    rw [judge_of_expected s k descriptor active capture expected]
    refine ⟨fun failed => ?_, fun passed last => ?_, fun passed inner => ?_⟩
    · rw [afterChunk_of_failed _ failed]
      rfl
    · rw [afterChunk_of_last _ passed last]
      rfl
    · rw [afterChunk_of_inner _ passed inner]
      rfl
  · refine writeRecords_failed inside (size := 8) (by rw [target]; rfl) ?_
    rw [target, storeRecord_map e m decoded]
    rfl
  · obtain ⟨staged, active, rest⟩ := m.setStagedEntry_spec e x
    refine ⟨_, staged, active, rest, writeRecords_stored inside (size := 8) (by rw [target]; rfl) ?_⟩
    rw [target, storeRecord_map e m decoded]
    rfl
  · refine writeRecords_failed inside (size := 16) (by rw [target]; rfl) ?_
    rw [target, storeRecord_conversion e m decoded]
    rfl
  · obtain ⟨staged, active, rest⟩ := m.setStagedRecord_spec e x
    refine ⟨_, staged, active, rest, writeRecords_stored inside (size := 16) (by rw [target]; rfl) ?_⟩
    rw [target, storeRecord_conversion e m decoded]
    rfl
end

section
/-! PROOFS. The load commands: the tests of each in their order, and the descriptor read from its eight bytes
(R152, R155 to R158, R164, R191). -/

open Sys2Proof Sys2Proof.Machine Sys2Proof.Machine.Setpoints

namespace Sys2Proof.Machine.Loads

/-! ### The descriptor (R152, R191) -/

/-- The fields of the eight bytes, whatever their limits. -/
def descriptorOf (r : BitVec 64) : Descriptor where
  target := if r.getLsbD 0 then .conversion else .map
  first := (recordByte r 1).toNat
  count := (recordByte r 2).toNat
  group := recordByte r 3
  offset := (recordByte r 4).toNat
  perChunk := (recordByte r 5).toNat
  chain := r.getLsbD 1
  autoCommit := r.getLsbD 2

/-- A reserved bit or byte is not 0 (R155 (3)). -/
def reservedSet (r : BitVec 64) : Prop := recordByte r 0 &&& 0xF8 ≠ 0 ∨ recordByte r 6 ≠ 0 ∨ recordByte r 7 ≠ 0

theorem recordByte_zero_getLsbD (r : BitVec 64) (i : Nat) (inside : i < 8) : (recordByte r 0).getLsbD i = r.getLsbD i := by
  simp [recordByte, inside]

section
variable (k : Fin 2) {r : BitVec 64}

theorem decodeDescriptor_reserved (reserved : reservedSet r) : decodeDescriptor k r = .error .reservedField := if_pos reserved

theorem decodeDescriptor_clear (clear : ¬reservedSet r) : decodeDescriptor k r =
    if (descriptorOf r).valid k then .ok (descriptorOf r) else .error .badArgument := by
  have bit (i : Nat) (inside : i < 8) := recordByte_zero_getLsbD r i inside
  rw [decodeDescriptor]
  refine (if_neg clear).trans ?_
  rw [bit 0 (by decide), bit 1 (by decide), bit 2 (by decide)]
  rfl

theorem decodeDescriptor_error_reserved_iff : decodeDescriptor k r = .error .reservedField ↔ reservedSet r := by
  refine ⟨fun refused => ?_, decodeDescriptor_reserved k⟩
  refine Classical.byContradiction fun clear => ?_
  rw [decodeDescriptor_clear k clear] at refused
  split at refused
  · nomatch refused
  · nomatch refused

/-- An accepted descriptor holds the fields of its bytes, within their limits. -/
theorem decodeDescriptor_ok {d : Descriptor} (accepted : decodeDescriptor k r = .ok d) :
    d = descriptorOf r ∧ d.valid k = true := by
  by_cases reserved : reservedSet r
  · rw [decodeDescriptor_reserved k reserved] at accepted
    nomatch accepted
  · rw [decodeDescriptor_clear k reserved] at accepted
    split at accepted
    next valid =>
      injection accepted with same
      subst same
      exact ⟨rfl, valid⟩
    next => nomatch accepted

end

theorem valid_iff (k : Fin 2) (d : Descriptor) : d.valid k = true ↔
    1 ≤ d.count ∧ d.group.toNat ≤ 15 ∧ d.offset ≤ 239 ∧ 1 ≤ d.perChunk ∧ d.first + d.count ≤ d.target.capacity ∧
    d.offset + 1 + d.perChunk * d.target.recordSize ≤ 240 ∧ (k = 1 → d.chain = false) := by
  have second : k.val = 1 ↔ k = 1 := ⟨fun same => Fin.ext same, congrArg Fin.val⟩
  simp only [Descriptor.valid, decide_eq_true_iff, second, Descriptor.limit, Descriptor.chunkLength, Nat.add_assoc,
    Nat.lt_succ_iff]

/-- The limits of R152 over the bytes themselves. -/
theorem descriptorOf_valid_iff (k : Fin 2) (r : BitVec 64) : (descriptorOf r).valid k = true ↔
    1 ≤ (recordByte r 2).toNat ∧ (recordByte r 3).toNat ≤ 15 ∧ (recordByte r 4).toNat ≤ 239 ∧ 1 ≤ (recordByte r 5).toNat ∧
    (recordByte r 1).toNat + (recordByte r 2).toNat ≤ (if r.getLsbD 0 then 16 else 64) ∧
    (recordByte r 4).toNat + 1 + (recordByte r 5).toNat * (if r.getLsbD 0 then 16 else 8) ≤ 240 ∧
    (k = 1 → r.getLsbD 1 = false) := by
  have capacity : (descriptorOf r).target.capacity = if r.getLsbD 0 then 16 else 64 := apply_ite _ _ _ _
  have size : (descriptorOf r).target.recordSize = if r.getLsbD 0 then 16 else 8 := apply_ite _ _ _ _
  rw [valid_iff, capacity, size]
  rfl

/-! ### The two records -/

theorem firstOrSecond (k : Fin 2) : k = 0 ∨ k = 1 := by omega

/-- States that differ in the load channels alone, by their two records. -/
theorem lch_ext {s : State} {v w : Vector LoadChannel 2} (first : v[0] = w[0]) (second : v[1] = w[1]) :
    { s with lch := v } = { s with lch := w } := by
  congr 1
  ext j inside : 1
  have place : j = 0 ∨ j = 1 := by omega
  rcases place with rfl | rfl
  · exact first
  · exact second

/-! ### The state of the other load channel (R156, R164) -/

theorem holds_iff (l : LoadChannel) : l.holds = true ↔ l.state = .active ∨ l.state = .waiting := decide_eq_true_iff

section
variable (s : State)

theorem otherLoad_eq (k : Fin 2) : (if k = 0 then s.lch[1] else s.lch[0]) = s.lch[1 - k] := by
  rcases firstOrSecond k with rfl | rfl <;> rfl

theorem chainingLc0_iff : s.chainingLc0 = true ↔
    s.lch[0].state = .active ∧ ∃ d, s.lch[0].descriptor = some d ∧ d.chain = true := by
  simp only [State.chainingLc0, Bool.and_eq_true, decide_eq_true_iff, Option.any_eq_true]

theorem loadOverlaps_iff (k : Fin 2) : s.loadOverlaps k = true ↔
    s.lch[1 - k].state = .active ∧ ∃ d o, s.lch[k].descriptor = some d ∧ s.lch[1 - k].descriptor = some o ∧
      o.target = d.target ∧ d.first < o.first + o.count ∧ o.first < d.first + d.count := by
  unfold State.loadOverlaps
  dsimp only
  cases own : s.lch[k].descriptor with
  | none => simp
  | some d =>
    cases other : s.lch[1 - k].descriptor with
    | none => simp
    | some o => exact decide_eq_true_iff.trans (by simp [Descriptor.limit])

theorem setLoad_first_second (l : LoadChannel) : (s.setLoad 0 l).lch[1] = s.lch[1] := by simp

section
variable {l : LoadChannel} (second : s.lch[1] = l)
include second

theorem cancelWaiting_of_waiting (waiting : l.state = .waiting) :
    s.cancelWaiting = s.setLoad 1 { l with state := .cancelled } := by
  subst second
  exact if_pos waiting

theorem cancelWaiting_of_other (other : l.state ≠ .waiting) : s.cancelWaiting = s := by
  subst second
  exact if_neg other

end

end

/-! ### The rules (R155 to R158) -/

theorem withLoadChannel_missing {channel : Byte} (missing : 2 ≤ channel.toNat) (rule : Fin 2 → Rule) (o : Origin)
    (s : State) : withLoadChannel channel rule o s = refuse .badArgument s := by
  simp only [withLoadChannel, loadChannelOf, dif_neg (Nat.not_lt.mpr missing)]

theorem withLoadChannel_named {channel : Byte} {k : Fin 2} (named : channel.toNat = k.val) (rule : Fin 2 → Rule) (o : Origin)
    (s : State) : withLoadChannel channel rule o s = rule k o s := by
  have inside : channel.toNat < 2 := named ▸ k.isLt
  have same : (⟨channel.toNat, inside⟩ : Fin 2) = k := Fin.ext named
  simp only [withLoadChannel, loadChannelOf, dif_pos inside, same]

section
variable {channel : Byte} {k : Fin 2} (named : channel.toNat = k.val) {r : BitVec 64} (o : Origin) (s : State)
include named

theorem loadSetup_of_held (held : s.lch[k].state = .active ∨ s.lch[k].state = .waiting) :
    loadSetup channel r o s = refuse .wrongState s := by
  rw [loadSetup, withLoadChannel_named named, if_pos ((holds_iff _).mpr held)]

theorem loadSetup_of_refused (free : ¬(s.lch[k].state = .active ∨ s.lch[k].state = .waiting)) {x : Result}
    (refused : decodeDescriptor k r = .error x) : loadSetup channel r o s = refuse x s := by
  rw [loadSetup, withLoadChannel_named named, if_neg (mt (holds_iff _).mp free), refused]

theorem loadSetup_of_accepted (free : ¬(s.lch[k].state = .active ∨ s.lch[k].state = .waiting)) {d : Descriptor}
    (accepted : decodeDescriptor k r = .ok d) : loadSetup channel r o s =
      doneWith (s.setLoad k { s.lch[k] with descriptor := some d, state := .ready, next := d.first, error := .none }) := by
  rw [loadSetup, withLoadChannel_named named, if_neg (mt (holds_iff _).mp free), accepted]

theorem loadStart_of_other (other : s.lch[k].state ≠ .ready) : loadStart channel o s = refuse .wrongState s := by
  rw [loadStart, withLoadChannel_named named, if_pos other]

theorem loadStart_of_ready (ready : s.lch[k].state = .ready) : loadStart channel o s =
    if k = 1 ∧ s.chainingLc0 then doneWith (s.setLoad k { s.lch[k] with state := .waiting })
    else if s.loadOverlaps k then refuse .busy s
    else doneWith (s.setLoad k { s.lch[k] with state := .active }) := by
  rw [loadStart, withLoadChannel_named named, if_neg (fun other => other ready)]

theorem loadCancel_of_closed (closed : ¬(s.lch[k].state = .ready ∨ s.lch[k].state = .active ∨ s.lch[k].state = .waiting)) :
    loadCancel channel o s = refuse .wrongState s := by
  rw [loadCancel, withLoadChannel_named named]
  exact if_neg closed

/-- With LC0 a WAITING LC1 is cancelled (R164 (2)). -/
theorem loadCancel_of_open (isOpen : s.lch[k].state = .ready ∨ s.lch[k].state = .active ∨ s.lch[k].state = .waiting) :
    loadCancel channel o s = doneWith { s with lch := Vector.ofFn fun j : Fin 2 =>
      if j = k then { s.lch[k] with state := .cancelled }
      else if k = 0 ∧ s.lch[j].state = .waiting then { s.lch[j] with state := .cancelled }
      else s.lch[j] } := by
  rw [loadCancel, withLoadChannel_named named]
  refine (if_pos isOpen).trans (congrArg doneWith ?_)
  rcases firstOrSecond k with rfl | rfl
  · by_cases waiting : s.lch[1].state = .waiting
    · rw [if_pos rfl, cancelWaiting_of_waiting _ (setLoad_first_second s _) waiting]
      exact lch_ext (by simp) (by simp [waiting])
    · rw [if_pos rfl, cancelWaiting_of_other _ (setLoad_first_second s _) waiting]
      exact lch_ext (by simp) (by simp [waiting])
  · exact lch_ext (by simp) (by simp)

theorem loadStatus_named : loadStatus channel o s =
    doneWith s [BitVec.ofNat 8 s.lch[k].state.code, BitVec.ofNat 8 s.lch[k].next, s.lch[k].error.code] := by
  rw [loadStatus, withLoadChannel_named named]

end

/-! ### The rows -/

theorem event_held_records (rule : Rule) (s : State) (high : s.released) {lch : Vector LoadChannel 2} {reply : List Byte}
    (done : rule .command s = doneWith { s with lch := lch } reply) :
    event (carried .held false rule) s = .next (State.answered { s with lch := lch } .done reply) := by
  rw [event_held_of_blocks false rule s high (by rw [done]; rfl) (by rw [done]; rfl) (by rw [done]; rfl) (by rw [done]; rfl),
    done]
  rfl

end Sys2Proof.Machine.Loads

open Sys2Proof.Machine.Loads

/-- Settles O42: each rule by its tests in their order, and the descriptor by the fields of its bytes. -/
theorem loadCommandsMoveTheLoadChannel : Obligations.LoadCommandsMoveTheLoadChannel := by
  intro s high
  have refused (rule : Rule) (result : Result) (h : rule .command s = refuse result s) :
      event (carried .held false rule) s = .next (s.answered result) := event_held_refused false rule s high h
  refine ⟨fun channel missing => ?_, fun channel k named => ?_, fun k r => ⟨?_, fun d accepted => ?_, fun flags low high => ?_⟩⟩
  · have bad (rule : Fin 2 → Rule) := refused _ _ (withLoadChannel_missing missing rule .command s)
    exact ⟨fun _ => bad _, bad _, bad _, bad _⟩
  · intro l put
    have taken (rule : Rule) (x : LoadChannel) (h : rule .command s = doneWith (s.setLoad k x)) :
        event (carried .held false rule) s = .next (put x) := event_held_records rule s high h
    refine ⟨fun r held => refused _ _ (loadSetup_of_held named .command s held),
      fun r x idle quiet error => refused _ _ (loadSetup_of_refused named .command s (not_or.mpr ⟨idle, quiet⟩) error),
      fun r d idle quiet accepted => taken _ _ (loadSetup_of_accepted named .command s (not_or.mpr ⟨idle, quiet⟩) accepted),
      fun other => refused _ _ (loadStart_of_other named .command s other), ?_⟩
    intro behindLc0 other sharesARecord
    have behind : behindLc0 ↔ k = 1 ∧ s.chainingLc0 = true := and_congr_right fun _ => (chainingLc0_iff s).symm
    have shares : sharesARecord ↔ s.loadOverlaps k = true := by
      rw [loadOverlaps_iff, ← otherLoad_eq]
    refine ⟨fun ready waits => taken _ _ ?_, fun ready first common => refused _ _ ?_,
      fun ready first apart => taken _ _ ?_,
      fun notReady idle quiet => refused _ _ (loadCancel_of_closed named .command s ?_),
      fun isOpen => event_held_records _ s high (loadCancel_of_open named .command s isOpen), ?_⟩
    · rw [loadStart_of_ready named .command s ready, if_pos (behind.mp waits)]
    · rw [loadStart_of_ready named .command s ready, if_neg (mt behind.mpr first), if_pos (shares.mp common)]
    · rw [loadStart_of_ready named .command s ready, if_neg (mt behind.mpr first), if_neg (mt shares.mpr apart)]
    · exact not_or.mpr ⟨notReady, not_or.mpr ⟨idle, quiet⟩⟩
    · have status := event_held_records (lch := s.lch) (loadStatus channel) s high (loadStatus_named named .command s)
      refine status.trans (congrArg (fun reply => Host.Outcome.next (s.answered .done reply)) ?_)
      refine congr (congrArg List.cons ?_) ?_
      · cases s.lch[k].state <;> rfl
      · refine congrArg (fun code => [_, code]) ?_
        cases s.lch[k].error <;> rfl
  · exact decodeDescriptor_error_reserved_iff k
  · obtain ⟨rfl, valid⟩ := decodeDescriptor_ok k accepted
    exact ⟨rfl, rfl, rfl, rfl, rfl, rfl, rfl, rfl, (valid_iff k _).mp valid⟩
  · intro first count offset perChunk fields
    have clear : ¬reservedSet r := fun reserved => reserved.elim (· flags) fun bytes => bytes.elim (· low) (· high)
    have valid : (descriptorOf r).valid k = true ↔ fields := descriptorOf_valid_iff k r
    rw [decodeDescriptor_clear k clear]
    exact ⟨fun inside => ⟨_, if_pos (valid.mpr inside)⟩, fun outside => if_neg (mt valid.mp outside)⟩
end

section
/-! PROOFS. The two load channel records of a sound state: what a load command, a judged chunk and the chain make of them
(R151, R155 to R157, R161, R163, R164). -/

open Sys2Proof Sys2Proof.Machine

namespace Sys2Proof.Machine.Loads

/-! ### One record -/

section
variable {k : Fin 2} {l : LoadChannel} {d : Descriptor}

theorem captured_sound (sound : LoadSound k l) (c : Option (List Byte)) : LoadSound k { l with capture := c } :=
  ⟨sound.idle, sound.error, sound.descriptor, sound.unfinished, sound.complete⟩

/-- A record that holds this descriptor, by the five fields of the claim. -/
theorem sound_of_descriptor (descriptor : l.descriptor = some d)
    (inside : d.valid k = true ∧ d.first ≤ l.next ∧ l.next ≤ d.limit) (busy : l.state ≠ .idle)
    (error : l.error ≠ .none ↔ l.state = .terminated)
    (unfinished : l.state = .ready ∨ l.state = .active ∨ l.state = .waiting → l.next < d.limit)
    (complete : l.state = .complete → l.next = d.limit) : LoadSound k l := by
  have only {e : Descriptor} (same : l.descriptor = some e) : e = d := Option.some.inj (same.symm.trans descriptor)
  refine ⟨⟨fun missing => ?_, fun idle => absurd idle busy⟩, error, fun e same => only same ▸ inside,
    fun e same => only same ▸ unfinished, fun e same => only same ▸ complete⟩
  rw [missing] at descriptor
  nomatch descriptor

/-- A fresh descriptor, READY at its first record (R155). -/
theorem setup_sound (l : LoadChannel) (valid : d.valid k = true) :
    LoadSound k { l with descriptor := some d, state := .ready, next := d.first, error := .none } := by
  have count : 1 ≤ d.count := ((valid_iff k d).mp valid).1
  have inside : d.first < d.limit := Nat.lt_add_of_pos_right count
  exact sound_of_descriptor rfl ⟨valid, Nat.le_refl _, Nat.le_of_lt inside⟩ (by simp) (by simp) (fun _ => inside) (by simp)

/-- A load that is not finished, started, made to wait or cancelled (R156, R157, R163, R164). -/
theorem moved_sound (sound : LoadSound k l) (unfinished : l.state = .ready ∨ l.state = .active ∨ l.state = .waiting)
    {st : LoadState} (move : st = .active ∨ st = .waiting ∨ st = .cancelled) : LoadSound k { l with state := st } := by
  obtain ⟨busy, running⟩ : l.state ≠ .idle ∧ l.state ≠ .terminated := by
    rcases unfinished with same | same | same <;> rw [same] <;> decide
  obtain ⟨busy', running', unfinished'⟩ : st ≠ .idle ∧ st ≠ .terminated ∧ st ≠ .complete := by
    rcases move with rfl | rfl | rfl <;> decide
  obtain ⟨d, descriptor⟩ := Option.ne_none_iff_exists'.mp (mt sound.idle.mp busy)
  exact sound_of_descriptor descriptor (sound.descriptor d descriptor) busy'
    ⟨fun failed => absurd (sound.error.mp failed) running, fun terminated => absurd terminated running'⟩
    (fun _ => sound.unfinished d descriptor unfinished) (fun complete => absurd complete unfinished')

/-! ### A chunk judged (R160, R161) -/

variable (sound : LoadSound k l) (descriptor : l.descriptor = some d)
include sound descriptor

theorem terminated_sound {error : LoadError} {next : Nat} (failed : error ≠ .none) (low : d.first ≤ next)
    (high : next ≤ d.limit) : LoadSound k { l with state := .terminated, error := error, next := next } := by
  obtain ⟨valid, -⟩ := sound.descriptor d descriptor
  exact sound_of_descriptor descriptor ⟨valid, low, high⟩ (by simp) (by simp [failed]) (by simp) (by simp)

variable (active : l.state = .active)
include active

/-- Behind the records of an expected chunk: their first failure, the end of the load, or the next chunk (R161). -/
theorem afterChunk_sound {w : Written} (low : d.first ≤ w.next) (high : w.next ≤ d.limit) :
    LoadSound k (l.afterChunk d w) := by
  obtain ⟨valid, -⟩ := sound.descriptor d descriptor
  have clean : l.error = .none := by simpa [active] using sound.error
  cases passed : w.ok with
  | false =>
    rw [afterChunk_of_failed l passed]
    exact terminated_sound sound descriptor (by decide) low high
  | true =>
    by_cases last : w.next = d.limit
    · rw [afterChunk_of_last l passed last]
      exact sound_of_descriptor descriptor ⟨valid, low, high⟩ (by simp) (by simp [clean]) (by simp) (fun _ => last)
    · rw [afterChunk_of_inner l passed last]
      exact sound_of_descriptor descriptor ⟨valid, low, high⟩ (by simp [active]) (by simp [active, clean])
        (fun _ => Nat.lt_of_le_of_ne high last) (by simp [active])

end

/-- What judging makes of a sound record: an ACTIVE one advances or ends, under its descriptor, and any other stays. -/
structure Judged (k : Fin 2) (before after : LoadChannel) : Prop where
  idle : before.state ≠ .active → after = before
  state : before.state = .active → after.state = .active ∨ after.state = .complete ∨ after.state = .terminated
  descriptor : after.descriptor = before.descriptor
  sound : LoadSound k after

theorem Judged.was_active {k : Fin 2} {l m : LoadChannel} (judged : Judged k l m) (active : m.state = .active) :
    l.state = .active := by
  refine Classical.byContradiction fun idle => ?_
  exact idle (judged.idle idle ▸ active)

theorem Judged.not_waiting {k : Fin 2} {l m : LoadChannel} (judged : Judged k l m) (quiet : l.state ≠ .waiting) :
    m.state ≠ .waiting := by
  by_cases active : l.state = .active
  · rcases judged.state active with same | same | same <;> rw [same] <;> decide
  · rw [judged.idle active]
    exact quiet

theorem afterChunk_descriptor (l : LoadChannel) (d : Descriptor) (w : Written) :
    (l.afterChunk d w).descriptor = l.descriptor := by
  unfold LoadChannel.afterChunk
  split
  · rfl
  · split <;> rfl

theorem afterChunk_state (l : LoadChannel) (d : Descriptor) (w : Written) (active : l.state = .active) :
    (l.afterChunk d w).state = .active ∨ (l.afterChunk d w).state = .complete ∨ (l.afterChunk d w).state = .terminated := by
  unfold LoadChannel.afterChunk
  split
  · exact .inr (.inr rfl)
  · split
    · exact .inr (.inl rfl)
    · exact .inl active

section
variable (s : State) (k : Fin 2)

/-- A judged load channel is ACTIVE and has a descriptor and a chunk with its index. -/
theorem judge_cases : s.judge k = s ∨ ∃ d index records, s.lch[k].descriptor = some d ∧ s.lch[k].state = .active ∧
    s.lch[k].capture = some (index :: records) := by
  by_cases active : s.lch[k].state = .active
  case neg => exact .inl (s.judge_of_not_active k active)
  match capture : s.lch[k].capture, descriptor : s.lch[k].descriptor with
  | none, _ => exact .inl (judge_of_no_capture s k capture)
  | some [], _ => exact .inl (by simp only [State.judge, capture])
  | some (_ :: _), none => exact .inl (by simp only [State.judge, capture, descriptor])
  | some (index :: records), some d => exact .inr ⟨d, index, records, rfl, active, rfl⟩

theorem judge_other {j : Fin 2} (other : j ≠ k) : (s.judge k).lch[j] = s.lch[j] := by
  rcases judge_cases s k with same | ⟨d, index, records, descriptor, active, capture⟩
  · rw [same]
  · rw [judge_of_captured s k descriptor active capture]
    split
    · rfl
    · split
      · rw [State.setLoad_get, if_neg other]
      · rw [State.setLoad_get, if_neg other]

theorem judge_judged (sound : LoadSound k s.lch[k]) : Judged k s.lch[k] (s.judge k).lch[k] := by
  have same : Judged k s.lch[k] s.lch[k] := ⟨fun _ => rfl, .inl, rfl, sound⟩
  rcases judge_cases s k with unchanged | ⟨d, index, records, descriptor, active, capture⟩
  · rw [unchanged]
    exact same
  obtain ⟨-, low, high⟩ := sound.descriptor d descriptor
  rw [judge_of_captured s k descriptor active capture]
  split
  · exact same
  · split
    · rw [State.setLoad_get, if_pos rfl]
      exact ⟨fun idle => absurd active idle, fun _ => .inr (.inr rfl), rfl,
        terminated_sound sound descriptor (by decide) low high⟩
    · obtain ⟨-, -, -, further, inside⟩ := writeRecords_spec d d.perChunk records s.lch[k].next s.map
      rw [State.setLoad_get, if_pos rfl]
      exact ⟨fun idle => absurd active idle, fun _ => afterChunk_state _ d _ active, afterChunk_descriptor _ d _,
        afterChunk_sound sound descriptor active (Nat.le_trans low further) (inside high)⟩

end

/-! ### Both records -/

/-- The claim over the two records alone (`loadsSound_iff`). -/
structure RecordsSound (a b : LoadChannel) : Prop where
  first : LoadSound 0 a
  second : LoadSound 1 b
  settled : a.state ≠ .waiting
  chained : b.state = .waiting → a.state = .active ∧ ∃ d, a.descriptor = some d ∧ d.chain = true
  apart : ∀ d e, a.descriptor = some d → b.descriptor = some e → a.state = .active → b.state = .active →
    d.target = e.target → d.limit ≤ e.first ∨ e.limit ≤ d.first

theorem loadsSound_iff (s : State) : LoadsSound s ↔ RecordsSound s.lch[0] s.lch[1] := by
  constructor
  · intro sound
    exact ⟨sound.each 0, sound.each 1, sound.first, fun waiting => (chainingLc0_iff s).mp (sound.chain waiting), sound.apart⟩
  · intro sound
    refine ⟨fun k => ?_, sound.settled, fun waiting => (chainingLc0_iff s).mpr (sound.chained waiting), sound.apart⟩
    rcases firstOrSecond k with rfl | rfl
    · exact sound.first
    · exact sound.second

section
variable {a b : LoadChannel} (sound : RecordsSound a b)
include sound

theorem captured_records (c e : Option (List Byte)) : RecordsSound { a with capture := c } { b with capture := e } :=
  ⟨captured_sound sound.first c, captured_sound sound.second e, sound.settled, sound.chained, sound.apart⟩

/-- No LC1 waits for an LC0 outside ACTIVE. -/
theorem not_waiting_of_idle (idle : a.state ≠ .active) : b.state ≠ .waiting := fun waiting => idle (sound.chained waiting).1

end

/-- LC0 neither ACTIVE nor WAITING, with no LC1 waiting for it. -/
theorem recordsSound_of_quiet_first {a b : LoadChannel} (first : LoadSound 0 a) (second : LoadSound 1 b)
    (idle : a.state ≠ .active) (quiet : a.state ≠ .waiting) (alone : b.state ≠ .waiting) : RecordsSound a b :=
  ⟨first, second, quiet, fun waiting => absurd waiting alone, fun _ _ _ _ active => absurd active idle⟩

/-- LC1 neither ACTIVE nor WAITING. -/
theorem recordsSound_of_quiet_second {a b : LoadChannel} (first : LoadSound 0 a) (settled : a.state ≠ .waiting)
    (second : LoadSound 1 b) (idle : b.state ≠ .active) (quiet : b.state ≠ .waiting) : RecordsSound a b :=
  ⟨first, second, settled, fun waiting => absurd waiting quiet, fun _ _ _ _ _ active => absurd active idle⟩

end Sys2Proof.Machine.Loads
end

section
/-! PROOFS. Work that keeps the load channel records consistent: everything that leaves them or touches captures alone, the load
commands, and the good end of a DATA telegram (R154 to R157, R159 to R165). -/

open Sys2Proof Sys2Proof.Machine

namespace Sys2Proof.Machine.Loads

/-- Consistent load channel records stay consistent. -/
structure LoadsKept (s u : State) : Prop where
  sound : LoadsSound s → LoadsSound u

theorem LoadsKept.refl (s : State) : LoadsKept s s := ⟨id⟩

theorem LoadsKept.trans {s u v : State} (first : LoadsKept s u) (later : LoadsKept u v) : LoadsKept s v :=
  ⟨later.sound ∘ first.sound⟩

theorem LoadsKept.of_lch {s u : State} (lch : u.lch = s.lch) : LoadsKept s u := by
  refine ⟨fun sound => ?_⟩
  rw [loadsSound_iff, lch]
  exact (loadsSound_iff s).mp sound

/-- Work that begins in a state of the same load channels. -/
theorem LoadsKept.of_same_lch {s u v : State} (kept : LoadsKept u v) (lch : u.lch = s.lch) : LoadsKept s v :=
  (LoadsKept.of_lch lch).trans kept

/-- Work that ends in a state of the same load channels. -/
theorem LoadsKept.then_lch {s u v : State} (kept : LoadsKept s u) (lch : v.lch = u.lch) : LoadsKept s v :=
  kept.trans (.of_lch lch)

theorem LoadsKept.foldl {α : Type} (f : State → α → State) (step : ∀ s a, LoadsKept s (f s a)) (l : List α)
    (s : State) : LoadsKept s (l.foldl f s) := by
  induction l generalizing s with
  | nil => exact .refl s
  | cons a l ih => exact (step s a).trans (ih (f s a))

/-- Work under a condition, and none without it. -/
theorem LoadsKept.guarded {s u : State} {p : Prop} [Decidable p] (kept : LoadsKept s u) :
    LoadsKept s (if p then u else s) := by
  split
  · exact kept
  · exact .refl s

/-- Behind a test that refuses, the rest of the rule decides. -/
theorem LoadsKept.unless {s : State} {p : Prop} [Decidable p] {result : Result} {reply : List Byte} {e : Executed}
    (rest : LoadsKept s e.state) : LoadsKept s (if p then refuse result s reply else e).state := by
  split
  · exact .refl s
  · exact rest

theorem channelsWork_loads {s u : State} (work : ChannelsWork s u) : LoadsKept s u := by
  obtain ⟨-, -, -, -, -, -, lch⟩ := work.blocks
  exact .of_lch lch

theorem lineWork_loads {s u : State} (work : LineWork s u) : LoadsKept s u := by
  obtain ⟨-, -, -, -, -, -, lch⟩ := work.blocks
  exact .of_lch lch

/-! ### Captures (R153, R154) -/

/-- A change of captures alone. -/
theorem captures_loads (s : State) (f : LoadChannel → LoadChannel) (capture : ∀ l, ∃ c, f l = { l with capture := c }) :
    LoadsKept s { s with lch := s.lch.map f } := by
  refine ⟨fun sound => ?_⟩
  obtain ⟨c, first⟩ := capture s.lch[0]
  obtain ⟨e, second⟩ := capture s.lch[1]
  rw [loadsSound_iff]
  simp only [Vector.getElem_map, first, second]
  exact captured_records ((loadsSound_iff s).mp sound) c e

theorem dropCaptures_loads (s : State) : LoadsKept s s.dropCaptures := captures_loads s _ fun _ => ⟨_, rfl⟩

theorem captureByte_loads (s : State) (pos : Nat) (b : Byte) : LoadsKept s (s.captureByte pos b) := by
  refine captures_loads s _ fun l => ?_
  unfold LoadChannel.captureByte
  split
  · split
    · exact ⟨_, rfl⟩
    · exact ⟨_, rfl⟩
  · exact ⟨_, rfl⟩

theorem openCaptures_loads (s : State) (group : Byte) (len : Nat) : LoadsKept s (s.openCaptures group len) := by
  refine captures_loads s _ fun l => ?_
  unfold LoadChannel.openCapture
  split
  · split
    · exact ⟨_, rfl⟩
    · exact ⟨_, rfl⟩
  · exact ⟨_, rfl⟩

/-! ### One record replaced -/

section
variable (s : State)

theorem setFirst_loads {x : LoadChannel} (kept : RecordsSound s.lch[0] s.lch[1] → RecordsSound x s.lch[1]) :
    LoadsKept s (s.setLoad 0 x) := by
  refine ⟨fun sound => ?_⟩
  rw [loadsSound_iff]
  simpa using kept ((loadsSound_iff s).mp sound)

theorem setSecond_loads {x : LoadChannel} (kept : RecordsSound s.lch[0] s.lch[1] → RecordsSound s.lch[0] x) :
    LoadsKept s (s.setLoad 1 x) := by
  refine ⟨fun sound => ?_⟩
  rw [loadsSound_iff]
  simpa using kept ((loadsSound_iff s).mp sound)

/-- A descriptor accepted where no staged bank is held (R155). -/
theorem setup_loads (k : Fin 2) {d : Descriptor} (free : ¬(s.lch[k].state = .active ∨ s.lch[k].state = .waiting))
    (valid : d.valid k = true) : LoadsKept s
      (s.setLoad k { s.lch[k] with descriptor := some d, state := .ready, next := d.first, error := .none }) := by
  rcases firstOrSecond k with rfl | rfl
  · exact setFirst_loads s fun sound => recordsSound_of_quiet_first (setup_sound _ valid) sound.second (by simp) (by simp)
      (not_waiting_of_idle sound fun active => free (.inl active))
  · exact setSecond_loads s fun sound => recordsSound_of_quiet_second sound.first sound.settled (setup_sound _ valid)
      (by simp) (by simp)

/-- LC1 waits behind a chained LC0 (R156 (3)). -/
theorem wait_loads (ready : s.lch[1].state = .ready) (chaining : s.chainingLc0 = true) :
    LoadsKept s (s.setLoad 1 { s.lch[1] with state := .waiting }) :=
  setSecond_loads s fun sound => ⟨sound.first, moved_sound sound.second (.inl ready) (.inr (.inl rfl)), sound.settled,
    fun _ => (chainingLc0_iff s).mp chaining, fun _ _ _ _ _ active => nomatch active⟩

/-- A load channel becomes ACTIVE where it shares no record with the other (R156 (4)). -/
theorem start_loads (k : Fin 2) (ready : s.lch[k].state = .ready) (apart : s.loadOverlaps k ≠ true) :
    LoadsKept s (s.setLoad k { s.lch[k] with state := .active }) := by
  rw [Ne, loadOverlaps_iff] at apart
  rcases firstOrSecond k with rfl | rfl
  · refine setFirst_loads s fun sound => ?_
    have alone := not_waiting_of_idle sound fun active => nomatch ready.symm.trans active
    refine ⟨moved_sound sound.first (.inl ready) (.inl rfl), sound.second, by simp, fun waiting => absurd waiting alone,
      fun d e own other _ active same => ?_⟩
    refine Classical.byContradiction fun common => ?_
    exact apart ⟨active, d, e, own, other, same.symm, by simp only [Descriptor.limit] at common; omega⟩
  · refine setSecond_loads s fun sound => ⟨sound.first, moved_sound sound.second (.inl ready) (.inl rfl), sound.settled,
      (nomatch ·), fun d e other own active _ same => ?_⟩
    refine Classical.byContradiction fun common => ?_
    exact apart ⟨active, e, d, own, other, same, by simp only [Descriptor.limit] at common; omega⟩

/-- A cancelled LC0 takes a WAITING LC1 with it (R157, R164 (2)). -/
theorem cancel_loads (k : Fin 2)
    (unfinished : s.lch[k].state = .ready ∨ s.lch[k].state = .active ∨ s.lch[k].state = .waiting) :
    LoadsKept s { s with lch := Vector.ofFn fun j : Fin 2 =>
      if j = k then { s.lch[k] with state := .cancelled }
      else if k = 0 ∧ s.lch[j].state = .waiting then { s.lch[j] with state := .cancelled }
      else s.lch[j] } := by
  refine ⟨fun holds => ?_⟩
  have sound := (loadsSound_iff s).mp holds
  rw [loadsSound_iff]
  rcases firstOrSecond k with rfl | rfl
  · have first := moved_sound sound.first unfinished (.inr (.inr rfl))
    by_cases waiting : s.lch[1].state = .waiting
    · have second := moved_sound sound.second (.inr (.inr waiting)) (.inr (.inr rfl))
      simpa [waiting] using recordsSound_of_quiet_first first second (by simp) (by simp) (by simp)
    · simpa [waiting] using recordsSound_of_quiet_first first sound.second (by simp) (by simp) waiting
  · have second := moved_sound sound.second unfinished (.inr (.inr rfl))
    simpa using recordsSound_of_quiet_second sound.first sound.settled second (by simp) (by simp)

end

/-! ### The load commands -/

/-- A rule that keeps the load channel records consistent, whatever its carrier. -/
def KeepsLoads (rule : Rule) : Prop := ∀ o s, LoadsKept s (rule o s).state

theorem channel_cases (channel : Byte) : 2 ≤ channel.toNat ∨ ∃ k : Fin 2, channel.toNat = k.val := by
  by_cases inside : channel.toNat < 2
  · exact .inr ⟨⟨channel.toNat, inside⟩, rfl⟩
  · exact .inl (Nat.not_lt.mp inside)

theorem loadSetup_loads (channel : Byte) (r : BitVec 64) : KeepsLoads (loadSetup channel r) := by
  intro o s
  rcases channel_cases channel with missing | ⟨k, named⟩
  · rw [loadSetup, withLoadChannel_missing missing]
    exact .refl s
  by_cases free : ¬(s.lch[k].state = .active ∨ s.lch[k].state = .waiting)
  case neg =>
    rw [loadSetup_of_held named o s (Classical.not_not.mp free)]
    exact .refl s
  cases decoded : decodeDescriptor k r with
  | error x =>
    rw [loadSetup_of_refused named o s free decoded]
    exact .refl s
  | ok d =>
    rw [loadSetup_of_accepted named o s free decoded]
    exact setup_loads s k free (decodeDescriptor_ok k decoded).2

theorem loadStart_loads (channel : Byte) : KeepsLoads (loadStart channel) := by
  intro o s
  rcases channel_cases channel with missing | ⟨k, named⟩
  · rw [loadStart, withLoadChannel_missing missing]
    exact .refl s
  by_cases ready : s.lch[k].state = .ready
  case neg =>
    rw [loadStart_of_other named o s ready]
    exact .refl s
  rw [loadStart_of_ready named o s ready]
  split
  next behind =>
    obtain ⟨rfl, chaining⟩ := behind
    exact wait_loads s ready chaining
  next =>
    split
    · exact .refl s
    next apart => exact start_loads s k ready apart

theorem loadCancel_loads (channel : Byte) : KeepsLoads (loadCancel channel) := by
  intro o s
  rcases channel_cases channel with missing | ⟨k, named⟩
  · rw [loadCancel, withLoadChannel_missing missing]
    exact .refl s
  by_cases unfinished : s.lch[k].state = .ready ∨ s.lch[k].state = .active ∨ s.lch[k].state = .waiting
  · rw [loadCancel_of_open named o s unfinished]
    exact cancel_loads s k unfinished
  · rw [loadCancel_of_closed named o s unfinished]
    exact .refl s

theorem loadStatus_loads (channel : Byte) : KeepsLoads (loadStatus channel) := by
  intro o s
  rcases channel_cases channel with missing | ⟨k, named⟩
  · rw [loadStatus, withLoadChannel_missing missing]
    exact .refl s
  · rw [loadStatus_named named o s]
    exact .refl s

/-! ### The chain (R163, R164) -/

theorem loadEntered_iff (before after : State) (k : Fin 2) (st : LoadState) :
    loadEntered before after k st = true ↔ before.lch[k].state ≠ st ∧ after.lch[k].state = st := by
  simp only [loadEntered, Bool.and_eq_true, decide_eq_true_iff, ne_eq]

section
variable {before u : State}

theorem chain_of_alone (alone : u.lch[1].state ≠ .waiting) : State.chain before u = u := by
  unfold State.chain
  rw [if_neg alone, cancelWaiting_of_other u rfl alone]
  split
  · rfl
  · split <;> rfl

theorem chain_of_active (active : u.lch[0].state = .active) : State.chain before u = u := by
  have stays {st : LoadState} (other : LoadState.active ≠ st) : ¬loadEntered before u 0 st = true := fun entered =>
    other (active.symm.trans ((loadEntered_iff before u 0 st).mp entered).2)
  rw [State.chain, if_neg fun both => stays (by decide) (Bool.and_eq_true_iff.mp both).1, if_neg (stays (by decide))]

variable (waiting : u.lch[1].state = .waiting)
include waiting

theorem chain_of_complete (entered : loadEntered before u 0 .complete = true) {d : Descriptor}
    (descriptor : u.lch[0].descriptor = some d) (chain : d.chain = true) :
    State.chain before u = u.setLoad 1 { u.lch[1] with state := .active } := by
  rw [State.chain, if_pos, if_pos waiting]
  rw [entered, descriptor]
  exact chain

theorem chain_of_terminated (entered : loadEntered before u 0 .terminated = true) :
    State.chain before u = u.setLoad 1 { u.lch[1] with state := .cancelled } := by
  have incomplete : ¬loadEntered before u 0 .complete = true := fun complete => nomatch
    ((loadEntered_iff before u 0 .complete).mp complete).2.symm.trans ((loadEntered_iff before u 0 .terminated).mp entered).2
  rw [State.chain, if_neg fun both => incomplete (Bool.and_eq_true_iff.mp both).1, if_pos entered,
    cancelWaiting_of_waiting u rfl waiting]

end

/-- After both chunks are judged the chain leaves consistent records: an LC1 that waited stays behind an LC0 that is still
ACTIVE, starts behind one that completed, and is cancelled with one that terminated. -/
theorem chain_sound {s u : State} (holds : LoadsSound s) (first : Judged 0 s.lch[0] u.lch[0])
    (second : Judged 1 s.lch[1] u.lch[1]) : LoadsSound (State.chain s u) := by
  have sound := (loadsSound_iff s).mp holds
  by_cases waiting : s.lch[1].state = .waiting
  · obtain ⟨active, d, descriptor, chain⟩ := sound.chained waiting
    have still : u.lch[1].state = .waiting := by
      rw [second.idle fun active => nomatch waiting.symm.trans active]
      exact waiting
    replace descriptor : u.lch[0].descriptor = some d := first.descriptor.trans descriptor
    have entered {st : LoadState} (other : LoadState.active ≠ st) (now : u.lch[0].state = st) :
        loadEntered s u 0 st = true :=
      (loadEntered_iff s u 0 st).mpr ⟨fun same => other (active.symm.trans same), now⟩
    rcases first.state active with now | now | now
    · rw [chain_of_active now, loadsSound_iff]
      exact ⟨first.sound, second.sound, first.not_waiting sound.settled,
        fun _ => ⟨now, d, descriptor, chain⟩, fun _ _ _ _ _ started => (nomatch still.symm.trans started)⟩
    · rw [chain_of_complete still (entered (by decide) now) descriptor chain, loadsSound_iff]
      have started := moved_sound second.sound (.inr (.inr still)) (.inl rfl)
      simpa using recordsSound_of_quiet_first first.sound started (by simp [now]) (by simp [now]) (by simp)
    · rw [chain_of_terminated still (entered (by decide) now), loadsSound_iff]
      have cancelled := moved_sound second.sound (.inr (.inr still)) (.inr (.inr rfl))
      simpa using recordsSound_of_quiet_first first.sound cancelled (by simp [now]) (by simp [now]) (by simp)
  · have alone : u.lch[1].state ≠ .waiting := second.not_waiting waiting
    rw [chain_of_alone alone, loadsSound_iff]
    refine ⟨first.sound, second.sound, first.not_waiting sound.settled, fun waits => absurd waits alone,
      fun d e own other active started => ?_⟩
    exact sound.apart d e (first.descriptor.symm.trans own) (second.descriptor.symm.trans other) (first.was_active active)
      (second.was_active started)

/-! ### The good end of a DATA telegram (R159) -/

theorem loadFlags_lch (before s : State) (k : Fin 2) : (State.loadFlags before s k).lch = s.lch := by
  unfold State.loadFlags
  dsimp only
  split <;> split <;> rfl

theorem loadsAtEnd_loads (s : State) : LoadsKept s s.loadsAtEnd := by
  refine ⟨fun sound => ?_⟩
  have kept : ((s.judge 0).judge 1).lch[0] = (s.judge 0).lch[0] := judge_other (s.judge 0) 1 (j := 0) (by decide)
  have untouched : (s.judge 0).lch[1] = s.lch[1] := judge_other s 0 (j := 1) (by decide)
  have first : Judged 0 s.lch[0] ((s.judge 0).judge 1).lch[0] := by
    rw [kept]
    exact judge_judged s 0 (sound.each 0)
  have second : Judged 1 s.lch[1] ((s.judge 0).judge 1).lch[1] := by
    rw [← untouched]
    refine judge_judged (s.judge 0) 1 (?_ : LoadSound 1 (s.judge 0).lch[1])
    rw [untouched]
    exact sound.each 1
  unfold State.loadsAtEnd
  dsimp only
  refine (dropCaptures_loads _).sound ?_
  have chained : LoadsSound (State.chain s (State.loadFlags s (State.loadFlags s ((s.judge 0).judge 1) 0) 1)) := by
    refine chain_sound sound ?_ ?_
    · rwa [loadFlags_lch, loadFlags_lch]
    · rwa [loadFlags_lch, loadFlags_lch]
  split
  · exact (LoadsKept.of_lch (commit_work .auto _).2).sound chained
  · exact chained

end Sys2Proof.Machine.Loads
end

section
/-! PROOFS. Every management command, whatever its carrier, keeps the load channel records consistent (R168, R171). -/

open Sys2Proof Sys2Proof.Machine

namespace Sys2Proof.Machine.Loads

/-! ### Commands to the other blocks leave the load channels -/

theorem refuse_loads (result : Result) : KeepsLoads fun _ s => refuse result s := fun _ s => .refl s

theorem acknowledgeAttention_loads (set : Half) : KeepsLoads (acknowledgeAttention set) := fun _ _ => .unless (.of_lch rfl)

theorem readParameter_loads (number : Half) : KeepsLoads (readParameter number) := by
  intro o s
  rw [readParameter_rule]
  exact .refl s

theorem setTripEnable_loads (s : State) (n : Fin 6) (on : Bool) : LoadsKept s (s.setTripEnable n on) := by
  unfold State.setTripEnable
  dsimp only
  split <;> exact .of_lch rfl

/-- The owners' writes, each behind its tests. -/
theorem write_loads (p : Param) (v : Word) : KeepsLoads (p.write v) := by
  intro o s
  cases p with
  | attentionMask | inputFilter | deadTime | exceptionMask => exact .unless (.of_lch rfl)
  | tripFilter | period | prescaler | polarity => exact .unless (.unless (.of_lch rfl))
  | ringMode | ringDepth => exact .unless (.unless (.unless (.of_lch rfl)))
  | safeLevels =>
    refine .unless ?_
    split
    · exact .unless (.of_lch rfl)
    · exact .refl s
  | gate =>
    refine .unless ?_
    split
    · exact .of_lch rfl
    · exact .refl s
  | tripEnable n => exact .unless (setTripEnable_loads s n _)
  | _ => exact .refl s

theorem writeParameter_loads (number : Half) (v : Word) : KeepsLoads (writeParameter number v) := by
  intro o s
  unfold writeParameter
  split
  · exact write_loads _ v o s
  · exact .refl s

theorem writeMapEntry_loads (index : Byte) (r : BitVec 64) : KeepsLoads (writeMapEntry index r) := by
  intro o s
  refine .unless (.unless ?_)
  split
  · exact .refl s
  · exact .of_lch rfl

theorem writeConversionRecord_loads (index : Byte) (r : BitVec 128) : KeepsLoads (writeConversionRecord index r) := by
  intro o s
  refine .unless (.unless ?_)
  split
  · exact .refl s
  · exact .of_lch rfl

theorem readMapEntry_loads (index selector : Byte) : KeepsLoads (readMapEntry index selector) := by
  intro o s
  rw [readMapEntry_rule]
  exact .refl s

theorem readConversionRecord_loads (index selector : Byte) : KeepsLoads (readConversionRecord index selector) := by
  intro o s
  rw [readConversionRecord_rule]
  exact .refl s

theorem commit_loads : KeepsLoads commit := fun o s => .of_lch (commit_work o s).2

theorem discardStaged_loads : KeepsLoads discardStaged := fun _ _ => .unless (.of_lch rfl)

theorem boundary_loads (s : State) (t : Fin 2) : LoadsKept s (s.boundary t) :=
  (channelsWork_loads (s.boundary_work t)).of_same_lch rfl

theorem startTimebase_loads (s : State) (t : Fin 2) : LoadsKept s (s.startTimebase t) := by
  unfold State.startTimebase
  refine .trans ?_ (.foldl State.restartAges (fun _ _ => .of_lch rfl) _ _)
  exact (boundary_loads _ t).of_same_lch rfl

theorem startTimebases_loads (set : Byte) : KeepsLoads (startTimebases set) := by
  intro o s
  refine .unless ?_
  split
  · exact .refl s
  · exact .foldl _ startTimebase_loads _ s

theorem stopTimebases_loads (set : Byte) : KeepsLoads (stopTimebases set) :=
  fun _ s => .unless (.foldl State.stopTimebase (fun _ _ => .of_lch rfl) _ s)

theorem pushSetpoint_loads (channel format conversion : Byte) (value : Word) :
    KeepsLoads (pushSetpoint channel format conversion value) := by
  intro o s
  unfold pushSetpoint
  split
  · exact .refl s
  · split
    · exact .refl s
    · split
      · exact .refl s
      · split
        · exact channelsWork_loads (s.deliver_work _ _ _).toChannelsWork
        · exact .refl s

theorem clearTrip_loads : KeepsLoads clearTrip := by
  intro o s
  have cleared : LoadsKept s s.clearTrip := by
    refine (LoadsKept.foldl _ (fun u n => ?_) _ { s with tiu.latch := false }).of_same_lch rfl
    exact .guarded (u := u.endForcing n) (.of_lch rfl)
  exact .unless cleared

theorem restart_loads : KeepsLoads restart := by
  intro o s
  simp only [restart, doneWith]
  exact .guarded (.of_lch rfl)

theorem enableChannels_loads (set : Byte) : KeepsLoads (enableChannels set) :=
  fun o s => channelsWork_loads (enableChannels_work set o s)

theorem disableChannels_loads (set : Byte) : KeepsLoads (disableChannels set) :=
  fun o s => channelsWork_loads (disableChannels_work set o s)

theorem clearFaultChannels_loads (set : Byte) : KeepsLoads (clearFaultChannels set) :=
  fun o s => channelsWork_loads (clearFaultChannels_work set o s)

theorem clearFlagsChannels_loads (set : Byte) : KeepsLoads (clearFlagsChannels set) :=
  fun o s => channelsWork_loads (clearFlagsChannels_work set o s)

/-! ### Payloads of telegrams (R169) -/

theorem channelAction_loads (set action : Byte) : KeepsLoads (channelAction set action) := by
  unfold channelAction
  split
  · exact enableChannels_loads set
  · exact disableChannels_loads set
  · exact clearFaultChannels_loads set
  · exact clearFlagsChannels_loads set
  · exact refuse_loads _

theorem timebaseAction_loads (set action : Byte) : KeepsLoads (timebaseAction set action) := by
  unfold timebaseAction
  split
  · exact startTimebases_loads set
  · exact stopTimebases_loads set
  · exact refuse_loads _

theorem tripAction_loads (action : Byte) : KeepsLoads (tripAction action) := by
  unfold tripAction
  split
  · exact fun _ _ => .of_lch rfl
  · exact clearTrip_loads
  · exact refuse_loads _

/-- Whatever a held or broadcast payload spells. -/
theorem commandRule_loads (code : Nat) (args : List Byte) : KeepsLoads (commandRule code args) := by
  unfold commandRule
  split
  case h_5 => exact acknowledgeAttention_loads _
  case h_6 => exact readParameter_loads _
  case h_7 => exact writeParameter_loads _ _
  case h_8 => exact writeMapEntry_loads _ _
  case h_9 => exact readMapEntry_loads _ _
  case h_10 => exact writeConversionRecord_loads _ _
  case h_11 => exact readConversionRecord_loads _ _
  case h_12 => exact commit_loads
  case h_13 => exact discardStaged_loads
  case h_14 => exact channelAction_loads _ _
  case h_15 => exact timebaseAction_loads _ _
  case h_16 => exact pushSetpoint_loads _ _ _ _
  case h_17 => exact tripAction_loads _
  case h_18 => exact loadSetup_loads _ _
  case h_19 => exact loadStart_loads _
  case h_20 => exact loadCancel_loads _
  case h_21 => exact loadStatus_loads _
  case h_23 => exact restart_loads
  all_goals exact fun _ _ => .of_lch rfl

theorem executeHeld_loads (payload : List Byte) (s : State) : LoadsKept s (executeHeld payload s).state := by
  unfold executeHeld
  dsimp only
  split
  · exact .refl s
  · split
    · exact commandRule_loads _ _ _ s
    · exact .refl s

theorem executeBroadcast_loads (payload : List Byte) (s : State) : LoadsKept s (executeBroadcast payload s) := by
  unfold executeBroadcast
  dsimp only
  split
  · exact .guarded (commandRule_loads _ _ _ s)
  · exact .refl s

end Sys2Proof.Machine.Loads
end

section
/-! PROOFS. Every step keeps the load channel records consistent: the work of a character on the drive line, the ticks and
samples, the resets, and the management rows (R151 to R165). -/

open Sys2Proof Sys2Proof.Machine

namespace Sys2Proof.Machine.Loads

/-! ### The drive line -/

theorem takeOffer_loads (s : State) (mark offer : Byte) : LoadsKept s (s.takeOffer mark offer) := by
  unfold State.takeOffer
  split <;> exact .of_lch rfl

theorem fixRestartPoint_loads (s : State) : LoadsKept s s.fixRestartPoint := by
  unfold State.fixRestartPoint
  exact .guarded (.of_lch rfl)

theorem executeTelegram_loads (s : State) (t : Telegram) : LoadsKept s (s.executeTelegram t).1 := by
  unfold State.executeTelegram
  dsimp only
  split
  · exact takeOffer_loads s _ _
  · exact (executeHeld_loads _ s).then_lch rfl

theorem endHeld_loads (s : State) (t : Telegram) (good : Bool) : LoadsKept s (s.endHeld t good) := by
  unfold State.endHeld
  split
  · exact .of_lch rfl
  · split
    · refine .trans ?_ (fixRestartPoint_loads _)
      exact ((executeTelegram_loads s t).trans (lineWork_loads (State.enterFifo_work _ _))).then_lch rfl
    · exact (lineWork_loads (s.enterFifo_work _)).then_lch rfl

theorem endForward_loads (s : State) (t : Telegram) (good : Bool) (first : Byte) (c : LineChar) :
    LoadsKept s (s.endForward t good first c) := by
  unfold State.endForward
  split
  case h_1 => exact lineWork_loads (s.endPassing_work good first c)
  case h_2 => exact (endHeld_loads _ t good).of_same_lch rfl
  all_goals exact .of_lch rfl

theorem processHolding_loads (s : State) (cycle : Byte) : LoadsKept s (s.processHolding cycle) := by
  obtain ⟨u, fed, processed⟩ := s.processHolding_work cycle
  rw [processed]
  exact (channelsWork_loads fed).then_lch rfl

/-- At the good end of a DATA telegram the chunks are judged, at a bad one they are dropped (R154, R159). -/
theorem endData_loads (s : State) (cycle : Byte) (good : Bool) : LoadsKept s (s.endData cycle good) := by
  unfold State.endData
  split
  · exact (processHolding_loads s cycle).trans (loadsAtEnd_loads _)
  · exact (dropCaptures_loads s.dropPlan).of_same_lch rfl

theorem endTelegram_loads (s : State) (t : Telegram) (good : Bool) (first : Byte) (c : LineChar) :
    LoadsKept s (s.endTelegram t good first c) := by
  have forwarded := endForward_loads s t good first c
  unfold State.endTelegram
  dsimp only
  split
  case h_1 => exact forwarded.trans (endData_loads _ _ _)
  case h_2 => exact forwarded.trans (.guarded ((executeBroadcast_loads _ _).trans (fixRestartPoint_loads _)))
  all_goals exact forwarded

theorem takeCheck2_loads (s : State) (t : Telegram) (first : Byte) (c : LineChar) :
    LoadsKept s (s.takeCheck2 t first c) := by
  unfold State.takeCheck2
  refine .trans ?_ (endTelegram_loads _ _ _ _ _)
  split <;> exact .of_lch rfl

theorem takeCheck1_loads (s : State) (t : Telegram) (c : LineChar) : LoadsKept s (s.takeCheck1 t c) := by
  unfold State.takeCheck1
  dsimp only
  split
  case h_1 => exact (lineWork_loads (State.passChars_work _ _)).of_same_lch rfl
  all_goals exact .of_lch rfl

theorem takePayload_loads (s : State) (t : Telegram) (pos : Nat) (c : LineChar) :
    LoadsKept s (s.takePayload t pos c) := by
  have forwarded : LoadsKept s ((s.feedCheck c).forwardPayload t pos c) :=
    (lineWork_loads ((s.feedCheck c).forwardPayload_work t pos c)).of_same_lch rfl
  unfold State.takePayload
  dsimp only
  generalize (s.feedCheck c).forwardPayload t pos c = u at forwarded ⊢
  refine forwarded.trans ?_
  split
  · exact ((captureByte_loads (u.collectByte pos c.data) pos c.data).of_same_lch (s := u) rfl).then_lch rfl
  · exact .of_lch rfl

theorem openData_loads (before s : State) (chars : List LineChar) (h0 h1 : Byte) (len : Nat) :
    LoadsKept s (State.openData before s chars h0 h1 len) := by
  unfold State.openData
  dsimp only
  refine (openCaptures_loads _ _ _).of_same_lch ?_
  split <;> rfl

theorem completeHeader_loads (s : State) (h0 h1 : Byte) (c : LineChar) : LoadsKept s (s.completeHeader h0 h1 c) := by
  have counted : LoadsKept s (if lengthAccepted (kindOf h0) c.data.toNat then s else s.countError .length) := by
    split
    · exact .refl s
    · exact .of_lch rfl
  have released (u : State) (t : Treatment) (cs : List LineChar) : LoadsKept u (u.releaseHeader t cs) :=
    lineWork_loads (u.releaseHeader_work t cs)
  unfold State.completeHeader
  dsimp only
  generalize (if lengthAccepted (kindOf h0) c.data.toNat then s else s.countError .length) = u at counted ⊢
  refine counted.trans ?_
  split
  · exact ((released u _ _).trans (openData_loads u _ _ h0 h1 c.data.toNat)).then_lch rfl
  · exact (released u _ _).then_lch rfl

theorem takeHeader_loads (s : State) (h0 : Byte) (h1 : Option Byte) (c : LineChar) :
    LoadsKept s (s.takeHeader h0 h1 c) := by
  unfold State.takeHeader
  dsimp only
  split
  · exact .of_lch rfl
  · exact (completeHeader_loads (s.feedCheck c) h0 _ c).of_same_lch rfl

theorem abortTelegram_loads (s : State) (e : LineError) : LoadsKept s (s.abortTelegram e) := by
  obtain ⟨-, -, -, -, -, -, -, lch, -⟩ := s.abortTelegram_frame e
  exact (dropCaptures_loads s).trans (.of_lch lch)

theorem inside_loads (s : State) (c : LineChar) (good : Bool) (take : State) (taken : LoadsKept s take) :
    LoadsKept s (s.inside c good take) := by
  unfold State.inside
  split
  · exact abortTelegram_loads s .framing
  · split
    · exact (abortTelegram_loads s .truncated).then_lch rfl
    · exact taken

theorem parse_loads (s : State) (c : LineChar) (good : Bool) : LoadsKept s (s.parse c good) := by
  unfold State.parse
  split
  · split
    · split <;> exact .of_lch rfl
    · exact .guarded (lineWork_loads (s.enterFifo_work [c]))
  · split
    · split <;> exact .of_lch rfl
    · exact .refl s
  · exact inside_loads s c good _ (takeHeader_loads s _ _ c)
  · exact inside_loads s c good _ (takePayload_loads s _ _ c)
  · exact inside_loads s c good _ (takeCheck1_loads s _ c)
  · exact inside_loads s c good _ (takeCheck2_loads s _ _ c)

theorem beginSending_loads (s : State) (time : Nat) : LoadsKept s (s.beginSending time) := by
  rcases s.beginSending_cases time with same | ⟨c, rest, -, -, -, -, begun⟩
  · rw [same]
    exact .refl s
  · rw [begun]
    exact .of_lch rfl

/-! ### Ticks, samples and resets -/

theorem tick_loads (s : State) (t : Fin 2) : LoadsKept s (s.tick t) := by
  unfold State.tick
  refine .guarded (LoadsKept.trans ?_ (.of_lch (s := s.countTick t) rfl))
  rcases s.countTick_cases t with ⟨-, counted⟩ | ⟨-, boundary⟩
  · rw [counted]
    exact .of_lch rfl
  · rw [boundary]
    exact boundary_loads s t

theorem sampleTrip_loads (s : State) (v : Bool) : LoadsKept s (s.sampleTrip v) := by
  rcases s.sampleTrip_cases v with ⟨-, -, sampled⟩ | ⟨-, sampled⟩
  · rw [sampled]; exact .of_lch rfl
  · rw [sampled]; exact .of_lch rfl

/-- Two IDLE load channels without a descriptor (R167). -/
theorem reset_sound : LoadsSound State.reset := by
  have idle (k : Fin 2) : LoadSound k .reset :=
    ⟨by decide, by decide, fun _ held => (nomatch held), fun _ held => (nomatch held), fun _ held => (nomatch held)⟩
  exact (loadsSound_iff _).mpr (recordsSound_of_quiet_first (idle 0) (idle 1) (by decide) (by decide) (by decide))

theorem resetWith_loads (s : State) (rate : BitVec 2) : LoadsKept s (s.resetWith rate) :=
  ⟨fun _ => (LoadsKept.of_lch (s := .reset) (u := s.resetWith rate) rfl).sound reset_sound⟩

/-! ### Every command -/

theorem carried_loads {rule : Rule} (keeps : KeepsLoads rule) (via : Via) (permitted : Bool) (s : State) :
    LoadsKept s (carried via permitted rule s) := by
  cases via with
  | held => exact (keeps .command s).then_lch rfl
  | broadcast => exact .guarded (keeps .broadcast s)

/-- A state reached by an event whose work keeps the load channels consistent. -/
theorem event_loads {work : State → State} {s t : State} (ran : event work s = .next t)
    (kept : LoadsKept s (work s)) : LoadsKept s t := by
  unfold event at ran
  split at ran
  · injection ran with result
    rw [← result]
    exact .refl s
  · injection ran with result
    rw [← result]
    exact kept.then_lch rfl

theorem row_loads {rule : Rule} {via : Via} {permitted : Bool} {s t : State} (keeps : KeepsLoads rule)
    (ran : event (carried via permitted rule) s = .next t) : LoadsKept s t :=
  event_loads ran (carried_loads keeps via permitted s)

theorem exec_loads (c : Instr) (s t : State) (ran : exec c s = .next t) : LoadsKept s t := by
  cases c with
  | rstnFall =>
    injection ran with result
    rw [← result]
    exact .of_lch rfl
  | rstnRelease straps =>
    injection ran with result
    rw [← result]
    exact (resetWith_loads s straps).then_lch rfl
  | restartTakesEffect =>
    dsimp only [exec, execRestartTakesEffect] at ran
    exact event_loads ran (.guarded ((resetWith_loads s s.lrx.rate).then_lch rfl))
  | characterReceived =>
    dsimp only [exec, execCharacterReceived] at ran
    exact event_loads ran (.guarded ((parse_loads _ _ _).of_same_lch rfl))
  | gapTimeout =>
    dsimp only [exec, execGapTimeout] at ran
    exact event_loads ran (.guarded (abortTelegram_loads s .gap))
  | transmitCharacter time =>
    dsimp only [exec, execTransmitCharacter] at ran
    exact event_loads ran (beginSending_loads s time)
  | characterSent time =>
    dsimp only [exec, execCharacterSent] at ran
    refine event_loads ran ?_
    split
    · exact .guarded ((beginSending_loads _ time).of_same_lch rfl)
    · exact .refl s
  | assign =>
    dsimp only [exec, execAssign] at ran
    exact event_loads ran (.guarded (takeOffer_loads s _ _))
  | lineIdle =>
    dsimp only [exec, execLineIdle] at ran
    exact event_loads ran (.guarded (.of_lch rfl))
  | startBitEdge =>
    dsimp only [exec, execStartBitEdge] at ran
    exact event_loads ran (.guarded (.of_lch rfl))
  | startBitSample level =>
    dsimp only [exec, execStartBitSample] at ran
    refine event_loads ran (.guarded ?_)
    split <;> exact .of_lch rfl
  | timebaseTick b =>
    dsimp only [exec, execTimebaseTick] at ran
    exact event_loads ran (tick_loads s b)
  | periodBoundary b =>
    dsimp only [exec, execPeriodBoundary] at ran
    exact event_loads ran (.guarded (tick_loads s b))
  | dutyMatch n =>
    dsimp only [exec, execDutyMatch] at ran
    exact event_loads ran (.guarded (tick_loads s _))
  | deadTimeExpiry n side =>
    dsimp only [exec, execDeadTimeExpiry] at ran
    exact event_loads ran (.guarded (tick_loads s _))
  | sampleInstant tripn inputs =>
    dsimp only [exec, execSampleInstant] at ran
    refine event_loads ran ((sampleTrip_loads s tripn).trans (.foldl _ (fun u k => ?_) _ _))
    exact .of_lch (u := u.sampleInput k _) rfl
  | filteredLevelChange line =>
    dsimp only [exec, execFilteredLevelChange] at ran
    refine event_loads ran ?_
    cases line with
    | trip => exact .guarded (sampleTrip_loads s _)
    | input k => exact .guarded (.of_lch rfl)
  | identify | readStatus | readCounters | clearCounters | force | releaseAddress =>
    exact row_loads (fun _ _ => .of_lch rfl) ran
  | acknowledgeAttention => exact row_loads (acknowledgeAttention_loads _) ran
  | readParameter => exact row_loads (readParameter_loads _) ran
  | writeParameter => exact row_loads (writeParameter_loads _ _) ran
  | writeAttentionMask _ v => exact row_loads (write_loads .attentionMask v) ran
  | writeTripFilter _ v => exact row_loads (write_loads .tripFilter v) ran
  | writeInputFilter _ k v => exact row_loads (write_loads (.inputFilter k) v) ran
  | writePeriod _ b v => exact row_loads (write_loads (.period b) v) ran
  | writePrescaler _ b v => exact row_loads (write_loads (.prescaler b) v) ran
  | writeDeadTime _ n v => exact row_loads (write_loads (.deadTime n) v) ran
  | writePolarity _ n v => exact row_loads (write_loads (.polarity n) v) ran
  | writeSafeLevels _ n v => exact row_loads (write_loads (.safeLevels n) v) ran
  | writeGate _ n v => exact row_loads (write_loads (.gate n) v) ran
  | writeTripEnable _ n v => exact row_loads (write_loads (.tripEnable n) v) ran
  | writeRingMode _ n v => exact row_loads (write_loads (.ringMode n) v) ran
  | writeRingDepth _ n v => exact row_loads (write_loads (.ringDepth n) v) ran
  | writeExceptionMask _ n v => exact row_loads (write_loads (.exceptionMask n) v) ran
  | writeMapEntry => exact row_loads (writeMapEntry_loads _ _) ran
  | readMapEntry => exact row_loads (readMapEntry_loads _ _) ran
  | writeConversionRecord => exact row_loads (writeConversionRecord_loads _ _) ran
  | readConversionRecord => exact row_loads (readConversionRecord_loads _ _) ran
  | commit => exact row_loads commit_loads ran
  | discardStaged => exact row_loads discardStaged_loads ran
  | enable => exact row_loads (enableChannels_loads _) ran
  | disable => exact row_loads (disableChannels_loads _) ran
  | clearFault => exact row_loads (clearFaultChannels_loads _) ran
  | clearFlags => exact row_loads (clearFlagsChannels_loads _) ran
  | start => exact row_loads (startTimebases_loads _) ran
  | stop => exact row_loads (stopTimebases_loads _) ran
  | pushSetpoint => exact row_loads (pushSetpoint_loads _ _ _ _) ran
  | clear => exact row_loads clearTrip_loads ran
  | loadSetup => exact row_loads (loadSetup_loads _ _) ran
  | loadStart => exact row_loads (loadStart_loads _) ran
  | loadCancel => exact row_loads (loadCancel_loads _) ran
  | loadStatus => exact row_loads (loadStatus_loads _) ran
  | restart via =>
    dsimp only [exec, execRestart] at ran
    exact event_loads ran ((carried_loads restart_loads via true s).trans (fixRestartPoint_loads _))

end Sys2Proof.Machine.Loads

open Sys2Proof.Machine.Loads

/-- Settles O8: the load commands and the good end of a DATA telegram move the records consistently, and all other work leaves
them, or all of them but their captures. -/
theorem stepKeepsTheLoadsSound : Obligations.StepKeepsTheLoadsSound := by
  intro s t sound ran
  unfold step at ran
  split at ran
  · injection ran with result
    exact result ▸ sound
  · exact ((exec_loads _ _ t ran).of_same_lch (s := s) rfl).sound sound
end

section
/-! PROOFS. A held payload as the row it spells: the length test, the argument bytes and the refusals (R168 to R170, R192, R194);
IDENTIFY, and broadcasts that are not permitted (R171, R177). -/

open Sys2Proof Sys2Proof.Machine Sys2Proof.Machine.Broadcast

namespace Sys2Proof.Machine.Payloads

/-! ### The length test (R169) -/

/-- The smallest length of a held payload is three bytes and the larger of its argument and its reply length. -/
theorem heldLength_eq (code : Nat) :
    heldLength code = (commandShape code).map fun (arguments, reply, _) => 3 + max arguments reply := by
  unfold heldLength
  split
  case h_24 =>
    unfold commandShape
    split
    case h_24 => rfl
    all_goals contradiction
  all_goals rfl

/-- A known code has a shape, from which its smallest length comes. -/
theorem shape_of_heldLength {code least : Nat} (known : heldLength code = some least) :
    ∃ arguments reply permitted, commandShape code = some (arguments, reply, permitted) ∧ least = 3 + max arguments reply := by
  rw [heldLength_eq, Option.map_eq_some_iff] at known
  obtain ⟨⟨arguments, reply, permitted⟩, shape, rfl⟩ := known
  exact ⟨arguments, reply, permitted, shape, rfl⟩

/-! ### The argument bytes (R194) -/

section
variable {α : Type} (bs : List α) {a i k : Nat}

theorem take_drop_take (h : i + k ≤ a) : ((bs.take a).drop i).take k = (bs.drop i).take k := by
  rw [List.drop_take, List.take_take, Nat.min_eq_left (by omega)]

end

section
variable (bs : List Byte) {a i : Nat}

theorem byteAt_take (h : i < a) : byteAt (bs.take a) i = byteAt bs i := by
  rw [byteAt, byteAt, List.getElem?_take_of_lt h]

theorem halfAt_take (h : i + 2 ≤ a) : halfAt (bs.take a) i = halfAt bs i := by
  rw [halfAt, halfAt, take_drop_take bs h]

theorem wordAt_take (h : i + 4 ≤ a) : wordAt (bs.take a) i = wordAt bs i := by
  rw [wordAt, wordAt, take_drop_take bs h]

/-- No rule reads a byte behind the arguments that R169 gives its code. -/
theorem commandRule_take {code reply : Nat} {permitted : Bool} (shape : commandShape code = some (a, reply, permitted)) :
    commandRule code (bs.take a) = commandRule code bs := by
  unfold commandShape at shape
  split at shape <;> cases shape <;>
    simp only [commandRule, byteAt_take, halfAt_take, wordAt_take, take_drop_take, Nat.reduceAdd, Nat.reduceLeDiff,
      Nat.reduceLT]

end

/-! ### Execution (R168) -/

section
variable (payload : List Byte) (s : State)

/-- A known code is executed over the bytes behind the three leading ones, or refused for its length.
A command without argument and reply bytes asks for the three leading bytes alone. -/
theorem executeHeld_of_known {least : Nat} (known : heldLength (byteAt payload 0).toNat = some least)
    (counted : 3 < least ∨ 3 ≤ payload.length) :
    executeHeld payload s =
      if least ≤ payload.length then commandRule (byteAt payload 0).toNat (payload.drop 3) .command s
      else refuse .badLength s := by
  obtain ⟨a, r, permitted, shape, rfl⟩ := shape_of_heldLength known
  have test : (a ≤ payload.length - 3 ∧ r ≤ payload.length - 3) ↔ 3 + max a r ≤ payload.length := by omega
  simp only [executeHeld, shape, commandRule_take _ shape, test]

theorem executeHeld_of_unknown (unknown : heldLength (byteAt payload 0).toNat = none) :
    executeHeld payload s = ⟨s, .unknownCommand, []⟩ := by
  rw [heldLength_eq, Option.map_eq_none_iff] at unknown
  exact executeHeld_unknown payload s unknown

end

/-! ### Rows (R192) -/

section
variable {payload : List Byte}

/-- The meaning of a spelled row is the rule of its code over the bytes behind the three leading ones. -/
theorem exec_of_spelled (s : State) {row : Instr} (spells : heldRow payload = some row) (other : row ≠ .restart .held) :
    ∃ permitted, exec row s =
      event (carried .held permitted (commandRule (byteAt payload 0).toNat (payload.drop 3))) s := by
  unfold heldRow at spells
  dsimp only at spells
  split at spells
  -- CHANNEL CONTROL
  case h_14 code =>
    obtain ⟨enable, disable, clearFault, clearFlags, -⟩ :=
      channelAction_cases (byteAt (payload.drop 3) 0) (byteAt (payload.drop 3) 1)
    simp only [code, commandRule]
    split at spells
    case h_1 one => cases spells; rw [enable one]; exact ⟨_, rfl⟩
    case h_2 two => cases spells; rw [disable two]; exact ⟨_, rfl⟩
    case h_3 three => cases spells; rw [clearFault three]; exact ⟨_, rfl⟩
    case h_4 four => cases spells; rw [clearFlags four]; exact ⟨_, rfl⟩
    case h_5 => cases spells
  -- TIMEBASE CONTROL
  case h_15 code =>
    obtain ⟨start, stop, -⟩ := timebaseAction_cases (byteAt (payload.drop 3) 0) (byteAt (payload.drop 3) 1)
    simp only [code, commandRule]
    split at spells
    case h_1 one => cases spells; rw [start one]; exact ⟨_, rfl⟩
    case h_2 two => cases spells; rw [stop two]; exact ⟨_, rfl⟩
    case h_3 => cases spells
  -- TRIP CONTROL
  case h_17 code =>
    obtain ⟨force, clear, -⟩ := tripAction_cases (byteAt (payload.drop 3) 0)
    simp only [code, commandRule]
    split at spells
    case h_1 one => cases spells; rw [force one]; exact ⟨_, rfl⟩
    case h_2 two => cases spells; rw [clear two]; exact ⟨_, rfl⟩
    case h_3 => cases spells
  -- RESTART, and the unknown codes
  case h_23 => cases spells; exact absurd rfl other
  case h_24 => cases spells
  all_goals
    rename_i code
    cases spells
    rw [code]
    exact ⟨_, rfl⟩

/-- A known code without a row is a control command with an unknown action byte (R103, R115, R142). -/
theorem commandRule_of_unspelled {least : Nat} (known : heldLength (byteAt payload 0).toNat = some least)
    (unspelled : heldRow payload = none) :
    commandRule (byteAt payload 0).toNat (payload.drop 3) = fun _ s => refuse .badArgument s := by
  unfold heldRow at unspelled
  dsimp only at unspelled
  split at unspelled
  -- CHANNEL CONTROL
  case h_14 code =>
    obtain ⟨-, -, -, -, refused⟩ := channelAction_cases (byteAt (payload.drop 3) 0) (byteAt (payload.drop 3) 1)
    simp only [code, commandRule]
    split at unspelled
    case h_5 not1 not2 not3 not4 =>
      rw [imp_false] at not1 not2 not3 not4
      exact refused (by omega)
    all_goals cases unspelled
  -- TIMEBASE CONTROL
  case h_15 code =>
    obtain ⟨-, -, refused⟩ := timebaseAction_cases (byteAt (payload.drop 3) 0) (byteAt (payload.drop 3) 1)
    simp only [code, commandRule]
    split at unspelled
    case h_3 not1 not2 =>
      rw [imp_false] at not1 not2
      exact refused (by omega)
    all_goals cases unspelled
  -- TRIP CONTROL
  case h_17 code =>
    obtain ⟨-, -, refused⟩ := tripAction_cases (byteAt (payload.drop 3) 0)
    simp only [code, commandRule]
    split at unspelled
    case h_3 not1 not2 =>
      rw [imp_false] at not1 not2
      exact refused (by omega)
    all_goals cases unspelled
  -- the unknown codes
  case h_24 =>
    unfold heldLength at known
    split at known <;> contradiction
  all_goals cases unspelled

end

end Sys2Proof.Machine.Payloads

open Sys2Proof.Machine.Payloads

/-- Settles O34: the length test decides whether the rule of the code runs, and that rule is the row's or the refusal. -/
theorem heldPayloadsAreTheirRows : Obligations.HeldPayloadsAreTheirRows := by
  intro payload s high
  have executes (least : Nat) (known : heldLength (byteAt payload 0).toNat = some least) (long : 4 ≤ payload.length) :=
    executeHeld_of_known payload s known (.inr (Nat.le_of_succ_le long))
  refine ⟨fun row least spells other known enough long => ?_, executeHeld_of_unknown payload s,
    fun least known short long => ?_, fun least known enough long unspelled => ?_⟩
  · obtain ⟨permitted, meaning⟩ := exec_of_spelled s spells other
    rw [meaning, event_high _ s high, carried_held, executes least known long, if_pos enough]
  · rw [executes least known long, if_neg (Nat.not_le.mpr short)]
    rfl
  · rw [executes least known long, if_pos enough, commandRule_of_unspelled known unspelled]
    rfl

/-- Settles O28: the rule is a constant reply, and the length test is that of code 01H with its eight reply bytes. -/
theorem identifyGivesTheConstants : Obligations.IdentifyGivesTheConstants := by
  refine ⟨fun s high => event_held_of_blocks false identify s high rfl rfl rfl rfl, fun payload s code => ?_⟩
  have known : heldLength (byteAt payload 0).toNat = some 11 := by rw [code]; rfl
  rw [executeHeld_of_known payload s known (.inl (by decide)), code]
  rfl

/-- Settles O4: the rows outside the broadcast column of R169 are those that an event ignores in a broadcast. -/
theorem unpermittedBroadcastIsIgnored : Obligations.UnpermittedBroadcastIsIgnored := by
  intro c s broadcast forbidden
  cases c with
  | rstnFall | rstnRelease | characterReceived | gapTimeout | transmitCharacter | assign | periodBoundary | dutyMatch
  | deadTimeExpiry | filteredLevelChange | restartTakesEffect | lineIdle | startBitEdge | startBitSample | characterSent
  | timebaseTick | sampleInstant => exact nomatch broadcast
  | commit | enable | disable | clearFault | clearFlags | start | stop | force | clear | releaseAddress | restart =>
    exact nomatch forbidden
  | _ =>
    cases broadcast
    exact event_ignored _ s
end

section
/-! PROOFS. The parameter numbers (R180), READ PARAMETER (R181) and WRITE PARAMETER (R182). -/

open Sys2Proof Sys2Proof.Machine Sys2Proof.Machine.Setpoints

namespace Sys2Proof.Machine.Parameters

/-! ### Numbers (R180) -/

theorem toNat_number {v : Nat} (h : v < 0x10000) : (BitVec.ofNat 16 v).toNat = v :=
  (BitVec.toNat_ofNat v 16).trans (Nat.mod_eq_of_lt h)

theorem paramOf_global {v : Nat} (h : v < 0x20) : paramOf (BitVec.ofNat 16 v) = globalParam v := by
  simp only [paramOf, toNat_number (show v < 0x10000 by omega), if_pos h]

theorem paramOf_inputFilter (k : Fin 8) : paramOf (BitVec.ofNat 16 (0x0008 + k.val)) = some (.inputFilter k) := by
  rw [paramOf_global (by omega)]
  fin_cases k <;> rfl

/-- The eight numbers of a timebase. -/
theorem paramOf_timebase (t : Fin 2) (j : Nat) (h : j < 8) :
    paramOf (BitVec.ofNat 16 (0x0020 + j + 8 * t.val)) = timebaseParam t j := by
  simp only [paramOf, toNat_number (show 0x0020 + j + 8 * t.val < 0x10000 by omega)]
  rw [if_neg (by omega)]
  rcases Loads.firstOrSecond t with rfl | rfl
  · rw [if_pos (by omega)]
    exact congrArg _ (by omega)
  · rw [if_neg (by omega), if_pos (by omega)]
    exact congrArg _ (by omega)

/-- The sixteen numbers of a channel. -/
theorem paramOf_channel (n : Fin 6) (j : Nat) (h : j < 16) :
    paramOf (BitVec.ofNat 16 (0x0100 + 0x10 * n.val + j)) = channelParam n j := by
  have channel : (0x0100 + 0x10 * n.val + j - 0x100) / 16 = n.val := by omega
  have place : (0x0100 + 0x10 * n.val + j - 0x100) % 16 = j := by omega
  simp only [paramOf, toNat_number (show 0x0100 + 0x10 * n.val + j < 0x10000 by omega), channel, place]
  rw [if_neg (by omega), if_neg (by omega), if_neg (by omega), if_neg (by omega), dif_pos n.isLt]

theorem globalParam_eq_none {v : Nat} (h : v = 0 ∨ v = 7 ∨ 0x11 ≤ v) : globalParam v = none := by
  unfold globalParam
  split
  case h_16 => rfl
  all_goals omega

theorem timebaseParam_eq_none (t : Fin 2) {j : Nat} (h : 3 ≤ j) : timebaseParam t j = none := by
  unfold timebaseParam
  split
  case h_4 => rfl
  all_goals omega

theorem channelParam_eq_none (n : Fin 6) {j : Nat} (h : 12 ≤ j) : channelParam n j = none := by
  unfold channelParam
  split
  case h_13 => rfl
  all_goals omega

/-- The numbers that R180 leaves without a parameter. -/
def Unnamed (v : Nat) : Prop :=
  v = 0 ∨ v = 7 ∨ (0x11 ≤ v ∧ v < 0x20) ∨ (0x23 ≤ v ∧ v < 0x28) ∨ (0x2B ≤ v ∧ v < 0x100) ∨
  (0x100 ≤ v ∧ v < 0x160 ∧ 12 ≤ v % 16) ∨ 0x160 ≤ v

theorem paramOf_unnamed {number : Half} (h : Unnamed number.toNat) : paramOf number = none := by
  unfold Unnamed at h
  unfold paramOf
  dsimp only
  split_ifs
  · exact globalParam_eq_none (by omega)
  · exact timebaseParam_eq_none 0 (by omega)
  · exact timebaseParam_eq_none 1 (by omega)
  · rfl
  · exact channelParam_eq_none _ (by omega)
  · rfl

/-! ### Values (R181) -/

theorem mul_bit_eq (weight : Nat) (b : Bool) : weight * b.toNat = if b then weight else 0 := by
  cases b with
  | false => rfl
  | true => exact Nat.mul_one weight

theorem bit_eq (b : Bool) : b.toNat = if b then 1 else 0 := by
  rw [← mul_bit_eq, Nat.one_mul]

theorem excSet_toNat (a b c d : Bool) : ExcSet.toNat ⟨a, b, c, d⟩ =
    (if a then 1 else 0) + (if b then 2 else 0) + (if c then 4 else 0) + if d then 8 else 0 := by
  simp only [ExcSet.toNat, mul_bit_eq, bit_eq a]

theorem status_eq (u : Tiu) : u.status = (if u.latch then 1 else 0) + if u.trip.level then 0 else 2 := by
  rw [Tiu.status, mul_bit_eq, bit_eq]
  cases u.trip.level <;> rfl

theorem tbState_code (x : TbState) : x.code = if x = .running then 1 else 0 := by cases x <;> rfl

theorem polarity_bit (x : Polarity) : x.bit = if x = .activeLow then 1 else 0 := by cases x <;> rfl

theorem ringMode_code (x : RingMode) : x.code = if x = .latest then 1 else 0 := by cases x <;> rfl

theorem polarities_value (hi lo : Polarity) :
    hi.bit + 2 * lo.bit = (if hi = .activeLow then 1 else 0) + if lo = .activeLow then 2 else 0 := by
  rw [polarity_bit, polarity_bit, mul_ite]

/-- The levels of a list of filters as the bits of a number, the first lowest. -/
def levelsOf (fs : List Machine.Filter) : Nat := fs.foldr (fun f acc => f.level.toNat + 2 * acc) 0

theorem levels_eq (u : Tiu) : u.levels = levelsOf u.inputs.toList := rfl

theorem levelsOf_cons (f : Machine.Filter) (fs : List Machine.Filter) : levelsOf (f :: fs) = Nat.bit f.level (levelsOf fs) := by
  rw [Nat.bit_val, Nat.add_comm]
  rfl

theorem levelsOf_lt (fs : List Machine.Filter) : levelsOf fs < 2 ^ fs.length := by
  induction fs with
  | nil => exact Nat.one_pos
  | cons f fs ih =>
    have bit := f.level.toNat_lt
    rw [levelsOf_cons, Nat.bit_val, List.length_cons, Nat.pow_succ]
    omega

theorem levelsOf_testBit (fs : List Machine.Filter) (k : Nat) (h : k < fs.length) :
    (levelsOf fs).testBit k = fs[k].level := by
  induction fs generalizing k with
  | nil => exact absurd h (Nat.not_lt_zero k)
  | cons f fs ih =>
    rw [levelsOf_cons]
    cases k with
    | zero => exact Nat.testBit_bit_zero ..
    | succ k => exact (Nat.testBit_bit_succ ..).trans (ih k (Nat.lt_of_succ_lt_succ h))

theorem levels_lt (u : Tiu) : u.levels < 256 := by
  have small := levelsOf_lt u.inputs.toList
  rwa [Vector.length_toList] at small

theorem levels_getLsbD (u : Tiu) (k : Fin 8) : (BitVec.ofNat 8 u.levels).getLsbD k.val = u.inputs[k].level := by
  have inside : k.val < u.inputs.toList.length := by rw [Vector.length_toList]; exact k.isLt
  rw [BitVec.getLsbD_ofNat, decide_eq_true k.isLt, Bool.true_and, levels_eq, levelsOf_testBit _ _ inside]
  rfl

/-! ### READ PARAMETER (R181) -/

theorem leBytes_four (v : Nat) : leBytes 4 v =
    [BitVec.ofNat 8 v, BitVec.ofNat 8 (v / 0x100), BitVec.ofNat 8 (v / 0x10000), BitVec.ofNat 8 (v / 0x1000000)] := by
  simp only [leBytes, Nat.div_div_eq_div_mul, Nat.reduceMul]

section
variable (s : State) (high : s.released)
include high

theorem exec_readParameter_named {number : Half} {p : Param} (named : paramOf number = some p) {value : Nat}
    (reads : s.paramValue p = value) :
    exec (.readParameter .held number) s = .next (s.answered .done
      [BitVec.ofNat 8 value, BitVec.ofNat 8 (value / 0x100), BitVec.ofNat 8 (value / 0x10000),
        BitVec.ofNat 8 (value / 0x1000000)]) := by
  have reply : readParameter number .command s = doneWith s (leBytes 4 value) := by
    simp only [readParameter, named, reads]
  refine (Loads.event_held_records (lch := s.lch) (readParameter number) s high reply).trans ?_
  rw [leBytes_four]

theorem exec_readParameter_unnamed {number : Half} (unnamed : Unnamed number.toNat) :
    exec (.readParameter .held number) s = .next (s.answered .badArgument) :=
  event_held_refused false (readParameter number) s high (by simp only [readParameter, paramOf_unnamed unnamed])

/-! ### WRITE PARAMETER (R182) -/

theorem exec_writeParameter_owned {number : Half} {value : Word} {p : Param} {row : Instr} (named : paramOf number = some p)
    (owner : exec row s = event (carried .held false (p.write value)) s) :
    ∃ t, exec (.writeParameter .held number value) s = .next t ∧ exec row s = .next t := by
  have rule : writeParameter number value .command s = p.write value .command s := by simp only [writeParameter, named]
  have writes : exec (.writeParameter .held number value) s = event (carried .held false (p.write value)) s := by
    show event (carried .held false (writeParameter number value)) s = _
    rw [event_high _ s high, event_high _ s high, carried_held, carried_held, rule]
  exact ⟨_, writes.trans (event_high _ s high), owner.trans (event_high _ s high)⟩

theorem exec_writeParameter_readOnly {number : Half} {value : Word} {p : Param} (named : paramOf number = some p)
    (fixed : p.write value = fun _ s => refuse .readOnly s) :
    exec (.writeParameter .held number value) s = .next (s.answered .readOnly) :=
  event_held_refused false (writeParameter number value) s high (by simp only [writeParameter, named, fixed])

theorem exec_writeParameter_unnamed {number : Half} {value : Word} (unnamed : Unnamed number.toNat) :
    exec (.writeParameter .held number value) s = .next (s.answered .badArgument) :=
  event_held_refused false (writeParameter number value) s high
    (by simp only [writeParameter, paramOf_unnamed unnamed])

end

end Sys2Proof.Machine.Parameters

open Sys2Proof.Machine.Parameters

/-- Settles O32: each number names its parameter, and each parameter has the value that R181 gives it. -/
theorem readParameterGivesTheValue : Obligations.ReadParameterGivesTheValue := by
  refine ⟨rfl, rfl, excSet_toNat, fun s high => ?_⟩
  intro gives
  have reads {number value : Nat} {p : Param} (named : paramOf (BitVec.ofNat 16 number) = some p)
      (value_eq : s.paramValue p = value) : gives number value := exec_readParameter_named s high named value_eq
  refine ⟨reads (paramOf_global (by decide)) rfl, reads (paramOf_global (by decide)) rfl,
    reads (paramOf_global (by decide)) rfl, reads (paramOf_global (by decide)) rfl, reads (paramOf_global (by decide)) rfl,
    reads (paramOf_global (by decide)) (status_eq s.tiu), fun k => reads (paramOf_inputFilter k) rfl, ?_,
    fun t => ?_, fun n => ?_, fun number unnamed => exec_readParameter_unnamed s high unnamed⟩
  · exact ⟨BitVec.ofNat 8 s.tiu.levels, reads (paramOf_global (by decide)) (Nat.mod_eq_of_lt (levels_lt s.tiu)).symm,
      levels_getLsbD s.tiu⟩
  · exact ⟨reads (paramOf_timebase t 0 (by decide)) rfl, reads (paramOf_timebase t 1 (by decide)) rfl,
      reads (paramOf_timebase t 2 (by decide)) (tbState_code _)⟩
  · intro base
    have named (j : Nat) (h : j < 16) : paramOf (BitVec.ofNat 16 (base + j)) = channelParam n j := paramOf_channel n j h
    refine ⟨reads (named 0 (by decide)) rfl, reads (named 1 (by decide)) (polarities_value _ _),
      reads (named 2 (by decide)) rfl, reads (named 3 (by decide)) ?_, reads (named 4 (by decide)) (bit_eq _),
      reads (named 5 (by decide)) (ringMode_code _), reads (named 6 (by decide)) rfl, reads (named 7 (by decide)) rfl,
      reads (named 8 (by decide)) rfl, reads (named 9 (by decide)) rfl, reads (named 10 (by decide)) rfl,
      reads (named 11 (by decide)) ?_⟩
    · show s.out[n].gate.value = _
      cases s.out[n].gate <;> rfl
    · show causeCode s.chn[n].cause = _
      rcases s.chn[n].cause with _ | _ | _ | _ | _ <;> rfl

/-- Settles O33: each number names its parameter, whose write is the owner's row, or a refusal. -/
theorem writeParameterRunsTheOwnersWrite : Obligations.WriteParameterRunsTheOwnersWrite := by
  intro s value high owns readOnly
  have owned {number : Nat} {p : Param} {row : Instr} (named : paramOf (BitVec.ofNat 16 number) = some p)
      (owner : exec row s = event (carried .held false (p.write value)) s) : owns number row :=
    exec_writeParameter_owned s high named owner
  have fixed {number : Nat} {p : Param} (named : paramOf (BitVec.ofNat 16 number) = some p)
      (refused : p.write value = fun _ s => refuse .readOnly s) : readOnly number :=
    exec_writeParameter_readOnly s high named refused
  refine ⟨owned (paramOf_global (by decide)) rfl, owned (paramOf_global (by decide)) rfl,
    fun k => owned (paramOf_inputFilter k) rfl, fun t => ?_, fun n => ?_, fixed (paramOf_global (by decide)) rfl,
    fixed (paramOf_global (by decide)) rfl, fixed (paramOf_global (by decide)) rfl, fixed (paramOf_global (by decide)) rfl,
    fixed (paramOf_global (by decide)) rfl, fun number unnamed => exec_writeParameter_unnamed s high unnamed⟩
  · exact ⟨owned (paramOf_timebase t 0 (by decide)) rfl, owned (paramOf_timebase t 1 (by decide)) rfl,
      fixed (paramOf_timebase t 2 (by decide)) rfl⟩
  · intro base
    have named (j : Nat) (h : j < 16) : paramOf (BitVec.ofNat 16 (base + j)) = channelParam n j := paramOf_channel n j h
    exact ⟨owned (named 0 (by decide)) rfl, owned (named 1 (by decide)) rfl, owned (named 2 (by decide)) rfl,
      owned (named 3 (by decide)) rfl, owned (named 4 (by decide)) rfl, owned (named 5 (by decide)) rfl,
      owned (named 6 (by decide)) rfl, owned (named 7 (by decide)) rfl, fixed (named 8 (by decide)) rfl,
      fixed (named 9 (by decide)) rfl, fixed (named 10 (by decide)) rfl, fixed (named 11 (by decide)) rfl⟩
end

section
/-! PROOFS. READ STATUS as its pieces of fixed lengths (R178), the attention flags and their mask (R174, R175), and the
attention summary (R176). -/

open Sys2Proof Sys2Proof.Machine Sys2Proof.Machine.Setpoints Sys2Proof.Machine.Timebases

namespace Sys2Proof.Machine.Status

/-! ### Pieces of one length -/

section
variable {α β : Type} (f : α → List β) {size : Nat} (same : ∀ a, (f a).length = size)
include same

theorem flatMap_length (l : List α) : (l.flatMap f).length = size * l.length := by
  induction l with
  | nil => rfl
  | cons a l ih => rw [List.flatMap_cons, List.length_append, same, ih, List.length_cons, Nat.mul_succ, Nat.add_comm]

/-- Behind the pieces before it stands the piece of each element. -/
theorem flatMap_piece (l : List α) (i : Nat) (h : i < l.length) :
    ((l.flatMap f).drop (size * i)).take size = f l[i] := by
  induction l generalizing i with
  | nil => exact absurd h (Nat.not_lt_zero i)
  | cons a l ih =>
    rw [List.flatMap_cons]
    cases i with
    | zero => exact List.take_left' (same a)
    | succ i =>
      rw [Nat.mul_succ, Nat.add_comm, ← List.drop_drop, List.drop_left' (same a)]
      exact ih i (Nat.lt_of_succ_lt_succ h)

end

/-! ### The bytes of READ STATUS (R178, R194) -/

theorem report_length (r : CommitReport) : r.bytes.length = 4 := by cases r <;> rfl

theorem headBytes_length (slot : Option Slot) : (headBytes slot).length = 2 := by
  rcases slot with _ | ⟨_, _, _, _ | _⟩ <;> rfl

theorem timebaseStatus_length (b : Timebase) : b.statusBytes.length = 5 := rfl

theorem channelStatus_length (s : State) (n : Fin 6) : (s.channelStatusBytes n).length = 6 := by
  simp only [State.channelStatusBytes, List.length_cons, List.length_append, leBytes_length, headBytes_length]

theorem timebaseStatus_eq (b : Timebase) : b.statusBytes =
    [if b.state = .running then 1 else 0, BitVec.ofNat 8 b.period, BitVec.ofNat 8 (b.period / 256),
     BitVec.ofNat 8 b.counter, BitVec.ofNat 8 (b.counter / 256)] := by
  unfold Timebase.statusBytes
  cases b.state <;> rfl

theorem channelStatus_eq (s : State) (n : Fin 6) : s.channelStatusBytes n =
    [BitVec.ofNat 8 (s.chn[n].state.code + if s.chn[n].saturated then 128 else 0),
     BitVec.ofNat 8 s.chn[n].duty, BitVec.ofNat 8 (s.chn[n].duty / 256), BitVec.ofNat 8 s.rings[n].slots.length] ++
    headBytes s.rings[n].slots.head? := by
  rw [← Parameters.mul_bit_eq]
  rfl

/-! ### The reply as a whole (R178) -/

section
variable (s : State)

/-- The five bytes of each timebase. -/
def timebasePart : List Byte := ([0, 1] : List (Fin 2)).flatMap fun t => s.tb[t].statusBytes

/-- The six bytes of each channel. -/
def channelPart : List Byte := allChannels.flatMap s.channelStatusBytes

/-- Active bank, commit report, high-water mark, timebases, channels. -/
def statusReply : List Byte :=
  s.map.role.code :: (s.map.report.bytes ++ BitVec.ofNat 8 s.fwd.highWater :: (timebasePart s ++ channelPart s))

theorem readStatus_eq (o : Origin) : readStatus o s = doneWith s (statusReply s) := by
  simp only [readStatus, statusReply, timebasePart, channelPart, List.flatMap_cons, List.flatMap_nil, List.append_nil]
  rfl

theorem timebasePart_length : (timebasePart s).length = 10 :=
  flatMap_length _ (fun t => timebaseStatus_length s.tb[t]) [0, 1]

theorem channelPart_length : (channelPart s).length = 36 := flatMap_length _ (channelStatus_length s) allChannels

theorem statusReply_length : (statusReply s).length = 52 := by
  simp only [statusReply, List.length_cons, List.length_append, report_length, timebasePart_length, channelPart_length]

theorem statusReply_report : ((statusReply s).drop 1).take 4 = s.map.report.bytes := List.take_left' (report_length _)

theorem statusReply_behind_report :
    (statusReply s).drop 5 = BitVec.ofNat 8 s.fwd.highWater :: (timebasePart s ++ channelPart s) :=
  List.drop_left' (report_length _)

theorem statusReply_behind_level : (statusReply s).drop 6 = timebasePart s ++ channelPart s := by
  rw [← List.drop_drop (i := 1) (j := 5), statusReply_behind_report, List.drop_one, List.tail_cons]

theorem statusReply_timebase (t : Fin 2) : ((statusReply s).drop (6 + 5 * t.val)).take 5 = s.tb[t].statusBytes := by
  have place := timebasePart_length s
  rw [← List.drop_drop, statusReply_behind_level, List.drop_append_of_le_length (by omega),
    List.take_append_of_le_length (by rw [List.length_drop]; omega)]
  refine (flatMap_piece _ (fun t => timebaseStatus_length s.tb[t]) [0, 1] t.val t.isLt).trans ?_
  rcases Loads.firstOrSecond t with rfl | rfl <;> rfl

theorem allChannels_get (n : Fin 6) (h : n.val < allChannels.length) : allChannels[n.val] = n := by
  fin_cases n <;> rfl

theorem statusReply_channel (n : Fin 6) : ((statusReply s).drop (16 + 6 * n.val)).take 6 = s.channelStatusBytes n := by
  rw [← List.drop_drop, ← List.drop_drop (i := 10) (j := 6), statusReply_behind_level,
    List.drop_left' (timebasePart_length s)]
  refine (flatMap_piece _ (channelStatus_length s) allChannels n.val n.isLt).trans ?_
  exact congrArg _ (allChannels_get n n.isLt)

end

/-! ### Reserved bits and the flags (R173 to R175, R182) -/

theorem reserved_flags_iff (set : Half) : set &&& 0xE000 ≠ 0 ↔ 0x2000 ≤ set.toNat := by
  have cleared : set &&& (0xE000 : Half) = (set >>> 13) <<< 13 := (BitVec.shiftLeft_ushiftRight (x := set) (n := 13)).symm
  have inside := set.isLt
  rw [cleared, Ne, ← BitVec.toNat_inj, BitVec.toNat_shiftLeft, BitVec.toNat_ushiftRight, Nat.shiftLeft_eq,
    Nat.shiftRight_eq_div_pow]
  change ¬set.toNat / 2 ^ 13 * 2 ^ 13 % 2 ^ 16 = 0 ↔ _
  omega

theorem reserved_mask_iff (v : Word) : v &&& 0xFFFFE000 ≠ 0 ↔ 0x2000 ≤ v.toNat :=
  (not_congr (and_highBits_eq_zero_iff v 13)).trans Nat.not_lt

/-- The flags that an acknowledgement leaves. -/
def remaining (flags : BitVec 13) (set : Half) : BitVec 13 := flags &&& ~~~set.setWidth 13

theorem remaining_getLsbD (flags : BitVec 13) (set : Half) (i : Nat) (h : i < 13) :
    (remaining flags set).getLsbD i = (flags.getLsbD i && !set.getLsbD i) := by
  simp [remaining, h]

theorem acknowledgeAttention_eq (set : Half) (o : Origin) (s : State) : acknowledgeAttention set o s =
    if 0x2000 ≤ set.toNat then refuse .reservedField s
    else doneWith { s with mge := { s.mge with flags := remaining s.mge.flags set } }
      (leBytes 2 (remaining s.mge.flags set).toNat) := by
  simp only [acknowledgeAttention, reserved_flags_iff, remaining]

theorem writeAttentionMask_eq (v : Word) (o : Origin) (s : State) : writeAttentionMask v o s =
    if 0x2000 ≤ v.toNat then refuse .reservedField s
    else doneWith { s with mge := { s.mge with mask := BitVec.ofNat 13 v.toNat } } := by
  simp only [writeAttentionMask, reserved_mask_iff, BitVec.ofNat_toNat]

/-- A row that changes MGE alone makes no edge. -/
theorem event_held_setMge (rule : Rule) (s : State) (high : s.released) {m : Mge} {reply : List Byte}
    (done : rule .command s = doneWith { s with mge := m } reply) :
    event (carried .held false rule) s = .next (State.answered { s with mge := m } .done reply) := by
  rw [event_high _ s high, carried_held, done]
  exact congrArg _ (settleEdges_of_blocks s (State.answered { s with mge := m } .done reply) rfl rfl rfl rfl)

/-! ### The summary (R176) -/

theorem enabledFlags_ne_zero_iff (s : State) :
    s.enabledFlags ≠ 0 ↔ ∃ i, i < 13 ∧ s.mge.flags.getLsbD i = true ∧ s.mge.mask.getLsbD i = true := by
  constructor
  · intro enabled
    by_contra none
    refine enabled (BitVec.eq_of_getLsbD_eq fun i inside => ?_)
    rw [State.enabledFlags, BitVec.getLsbD_and, BitVec.ofNat_eq_ofNat, BitVec.getLsbD_zero, Bool.and_eq_false_imp]
    exact fun flag => eq_false_of_ne_true fun mask => none ⟨i, inside, flag, mask⟩
  · rintro ⟨i, -, flag, mask⟩ zero
    have bit : s.enabledFlags.getLsbD i = true := by rw [State.enabledFlags, BitVec.getLsbD_and, flag, mask, Bool.and_self]
    rw [zero, BitVec.ofNat_eq_ofNat, BitVec.getLsbD_zero] at bit
    exact Bool.false_ne_true bit

theorem summary_cases (s : State) :
    (s.enabledFlags = 0 ∧ s.summary = 0) ∨ (s.enabledFlags ≠ 0 ∧ s.summary = 1) := by
  by_cases zero : s.enabledFlags = 0
  · exact .inl ⟨zero, if_pos zero⟩
  · exact .inr ⟨zero, if_neg zero⟩

theorem summary_eq_one_iff (s : State) : s.summary = 1 ↔ s.enabledFlags ≠ 0 := by
  rcases summary_cases s with ⟨zero, summary⟩ | ⟨enabled, summary⟩
  · rw [summary]
    exact iff_of_false (by decide) (not_not_intro zero)
  · exact iff_of_true summary enabled

end Sys2Proof.Machine.Status

open Sys2Proof.Machine.Status

/-- Settles O29: the reply is pieces of fixed lengths, one for each item. -/
theorem readStatusDescribesThePart : Obligations.ReadStatusDescribesThePart := by
  refine ⟨rfl, rfl, fun s high => ⟨statusReply s, statusReply_length s,
    Loads.event_held_records (lch := s.lch) readStatus s high (readStatus_eq s .command), ?_, ?_, ?_, fun t => ?_,
    fun n => ?_⟩⟩
  · show [s.map.role.code] = _
    cases s.map.role <;> rfl
  · rw [statusReply_report]
    cases s.map.report <;> rfl
  · rw [statusReply_behind_report]
    rfl
  · rw [statusReply_timebase, timebaseStatus_eq]
  · rw [statusReply_channel, channelStatus_eq]
    rcases s.rings[n].slots with _ | ⟨⟨_, _, _, _ | _⟩, _⟩ <;> rfl

/-- Settles O31: the reserved bits decide each write, and the summary is whether any enabled flag is set. -/
theorem attentionIsAcknowledgedAndMasked : Obligations.AttentionIsAcknowledgedAndMasked := by
  intro s high
  refine ⟨fun set large => ?_, fun set small => ?_, fun value large => ?_, fun value small => ?_, ?_, ?_⟩
  · refine event_held_refused false (acknowledgeAttention set) s high ?_
    rw [acknowledgeAttention_eq, if_pos large]
  · refine ⟨remaining s.mge.flags set, remaining_getLsbD s.mge.flags set,
      event_held_setMge (acknowledgeAttention set) s high ?_⟩
    rw [acknowledgeAttention_eq, if_neg (Nat.not_le.mpr small)]
    rfl
  · refine event_held_refused false (writeAttentionMask value) s high ?_
    rw [writeAttentionMask_eq, if_pos large]
  · refine event_held_setMge (writeAttentionMask value) s high ?_
    rw [writeAttentionMask_eq, if_neg (Nat.not_le.mpr small)]
  · exact (summary_eq_one_iff s).trans (enabledFlags_ne_zero_iff s)
  · exact (summary_cases s).imp And.right And.right
end

section
/-! PROOFS. The queue (00 §1.2): a step takes the command at its front, and no command touches what stands behind it. -/

open Sys2Proof Sys2Proof.Machine

namespace Sys2Proof.Machine.Queue

/-! ### The step -/

theorem step_front {s : State} {c : Instr} {rest : List Instr} (front : s.pending = c :: rest) :
    step s = exec c { s with pending := rest } := by
  simp only [step, front]

theorem step_empty {s : State} (empty : s.pending = []) : step s = .next s := by
  simp only [step, empty]

/-! ### The shared operations leave the queue -/

section
variable {s u : State}

theorem lineWork_pending (work : LineWork s u) : u.pending = s.pending := by
  obtain ⟨-, -, queue⟩ := work.rest
  exact queue

theorem channelsWork_pending (work : ChannelsWork s u) : u.pending = s.pending := by
  obtain ⟨-, -, queue⟩ := work.rest
  exact queue

theorem loadsWork_pending (work : LoadsWork s u) : u.pending = s.pending := by
  obtain ⟨-, -, queue⟩ := work.rest
  exact queue

theorem ruleWork_pending (work : RuleWork s u) : u.pending = s.pending := by
  obtain ⟨-, -, queue⟩ := work.rest
  exact queue

/-- Work under a condition, and none without it. -/
theorem guarded_pending {p : Prop} [Decidable p] (kept : u.pending = s.pending) :
    (if p then u else s).pending = s.pending := by
  split
  · exact kept
  · rfl

end

@[simp] theorem enterFifo_pending (s : State) (cs : List LineChar) : (s.enterFifo cs).pending = s.pending :=
  lineWork_pending (s.enterFifo_work cs)

@[simp] theorem passChars_pending (s : State) (cs : List LineChar) : (s.passChars cs).pending = s.pending :=
  lineWork_pending (s.passChars_work cs)

@[simp] theorem releaseHeader_pending (s : State) (t : Treatment) (cs : List LineChar) :
    (s.releaseHeader t cs).pending = s.pending :=
  lineWork_pending (s.releaseHeader_work t cs)

@[simp] theorem forwardPayload_pending (s : State) (t : Telegram) (pos : Nat) (c : LineChar) :
    (s.forwardPayload t pos c).pending = s.pending :=
  lineWork_pending (s.forwardPayload_work t pos c)

@[simp] theorem executeHeld_pending (payload : List Byte) (s : State) : (executeHeld payload s).state.pending = s.pending :=
  ruleWork_pending (executeHeld_rule payload s)

@[simp] theorem executeBroadcast_pending (payload : List Byte) (s : State) :
    (executeBroadcast payload s).pending = s.pending :=
  ruleWork_pending (executeBroadcast_rule payload s)

/-! ### The end of a telegram (R11, R33 to R39, R70, R159) -/

@[simp] theorem fixRestartPoint_pending (s : State) : s.fixRestartPoint.pending = s.pending := guarded_pending rfl

@[simp] theorem takeOffer_pending (s : State) (mark offer : Byte) : (s.takeOffer mark offer).pending = s.pending := by
  unfold State.takeOffer
  split <;> rfl

@[simp] theorem executeTelegram_pending (s : State) (t : Telegram) : (s.executeTelegram t).1.pending = s.pending := by
  unfold State.executeTelegram
  dsimp only
  split
  · exact takeOffer_pending s _ _
  · exact executeHeld_pending _ s

@[simp] theorem closeForward_pending (s : State) : s.closeForward.pending = s.pending := rfl

theorem endHeld_pending (s : State) (t : Telegram) (good : Bool) : (s.endHeld t good).pending = s.pending := by
  unfold State.endHeld
  split
  · rfl
  · split
    · simp only [fixRestartPoint_pending, closeForward_pending, enterFifo_pending, executeTelegram_pending]
    · simp only [closeForward_pending, enterFifo_pending]

theorem endForward_pending (s : State) (t : Telegram) (good : Bool) (first : Byte) (c : LineChar) :
    (s.endForward t good first c).pending = s.pending := by
  unfold State.endForward
  split
  case h_1 => exact lineWork_pending (s.endPassing_work good first c)
  case h_2 => exact endHeld_pending _ t good
  all_goals rfl

theorem processHolding_pending (s : State) (cycle : Byte) : (s.processHolding cycle).pending = s.pending := by
  obtain ⟨u, fed, processed⟩ := s.processHolding_work cycle
  rw [processed]
  show u.pending = s.pending
  exact channelsWork_pending fed

theorem endData_pending (s : State) (cycle : Byte) (good : Bool) : (s.endData cycle good).pending = s.pending := by
  unfold State.endData
  split
  · exact (loadsWork_pending (State.loadsAtEnd_work _)).trans (processHolding_pending s cycle)
  · rfl

theorem endTelegram_pending (s : State) (t : Telegram) (good : Bool) (first : Byte) (c : LineChar) :
    (s.endTelegram t good first c).pending = s.pending := by
  have forwarded := endForward_pending s t good first c
  unfold State.endTelegram
  dsimp only
  split
  case h_1 => exact (endData_pending _ _ _).trans forwarded
  case h_2 =>
    exact (guarded_pending ((fixRestartPoint_pending _).trans (executeBroadcast_pending _ _))).trans forwarded
  all_goals exact forwarded

/-! ### The characters of a telegram (R7 to R17) -/

theorem openData_pending (before s : State) (cs : List LineChar) (h0 h1 : Byte) (len : Nat) :
    (State.openData before s cs h0 h1 len).pending = s.pending :=
  guarded_pending (u := { s with free := s.free + 1 }) rfl

theorem completeHeader_pending (s : State) (h0 h1 : Byte) (c : LineChar) : (s.completeHeader h0 h1 c).pending = s.pending := by
  have counted : (if lengthAccepted (kindOf h0) c.data.toNat then s else s.countError .length).pending = s.pending := by
    split <;> rfl
  unfold State.completeHeader
  dsimp only
  generalize (if lengthAccepted (kindOf h0) c.data.toNat then s else s.countError .length) = u at counted ⊢
  refine Eq.trans ?_ counted
  split
  · exact (openData_pending u _ _ h0 h1 _).trans (releaseHeader_pending u _ _)
  · exact releaseHeader_pending u _ _

theorem takeHeader_pending (s : State) (h0 : Byte) (h1 : Option Byte) (c : LineChar) :
    (s.takeHeader h0 h1 c).pending = s.pending := by
  cases h1 with
  | none => rfl
  | some b => exact completeHeader_pending (s.feedCheck c) h0 b c

theorem takePayload_pending (s : State) (t : Telegram) (pos : Nat) (c : LineChar) :
    (s.takePayload t pos c).pending = s.pending := by
  have forwarded : ((s.feedCheck c).forwardPayload t pos c).pending = s.pending := forwardPayload_pending _ t pos c
  unfold State.takePayload
  dsimp only
  generalize (s.feedCheck c).forwardPayload t pos c = u at forwarded ⊢
  refine Eq.trans ?_ forwarded
  split <;> rfl

theorem takeCheck1_pending (s : State) (t : Telegram) (c : LineChar) : (s.takeCheck1 t c).pending = s.pending := by
  unfold State.takeCheck1
  dsimp only
  split
  case h_1 => exact passChars_pending _ _
  all_goals rfl

theorem takeCheck2_pending (s : State) (t : Telegram) (first : Byte) (c : LineChar) :
    (s.takeCheck2 t first c).pending = s.pending := by
  unfold State.takeCheck2
  refine (endTelegram_pending _ _ _ _ _).trans ?_
  split <;> rfl

theorem abortTelegram_pending (s : State) (e : LineError) : (s.abortTelegram e).pending = s.pending := by
  show s.abortForward.pending = s.pending
  exact lineWork_pending s.abortForward_work

theorem inside_pending (s : State) (c : LineChar) (good : Bool) (take : State) (taken : take.pending = s.pending) :
    (s.inside c good take).pending = s.pending := by
  unfold State.inside
  split
  · exact abortTelegram_pending s .framing
  · split
    · exact abortTelegram_pending s .truncated
    · exact taken

theorem parse_pending (s : State) (c : LineChar) (good : Bool) : (s.parse c good).pending = s.pending := by
  unfold State.parse
  split
  · split
    · split <;> rfl
    · exact guarded_pending (enterFifo_pending s [c])
  · split
    · split <;> rfl
    · rfl
  · exact inside_pending s c good _ (takeHeader_pending s _ _ c)
  · exact inside_pending s c good _ (takePayload_pending s _ _ c)
  · exact inside_pending s c good _ (takeCheck1_pending s _ c)
  · exact inside_pending s c good _ (takeCheck2_pending s _ _ c)

/-! ### TXO, ticks and samples -/

theorem beginSending_pending (s : State) (time : Nat) : (s.beginSending time).pending = s.pending := by
  rcases s.beginSending_cases time with same | ⟨c, rest, -, -, -, -, begun⟩
  · rw [same]
  · rw [begun]

theorem tick_pending (s : State) (t : Fin 2) : (s.tick t).pending = s.pending := by
  refine guarded_pending (u := tickAges t s (s.countTick t)) ?_
  rcases s.countTick_cases t with ⟨-, counted⟩ | ⟨-, boundary⟩
  · rw [counted]
    rfl
  · rw [boundary]
    show (s.boundary t).pending = s.pending
    exact ruleWork_pending (s.boundary_rule t)

theorem sampleTrip_pending (s : State) (v : Bool) : (s.sampleTrip v).pending = s.pending := by
  rcases s.sampleTrip_cases v with ⟨-, -, sampled⟩ | ⟨-, sampled⟩
  · rw [sampled]
    rfl
  · rw [sampled]

theorem foldl_sampleInput_pending (levels : Byte) (l : List (Fin 8)) (s : State) :
    (l.foldl (fun s k => s.sampleInput k (levels.getLsbD k.val)) s).pending = s.pending := by
  induction l generalizing s with
  | nil => rfl
  | cons k l ih => exact ih (s.sampleInput k (levels.getLsbD k.val))

/-! ### Every command -/

/-- An event answers a next state, with the queue its work leaves. -/
theorem event_leaves {work : State → State} {s : State} (kept : (work s).pending = s.pending) :
    ∃ t, event work s = .next t ∧ t.pending = s.pending := by
  unfold event
  split
  · exact ⟨s, rfl, rfl⟩
  · exact ⟨settleEdges s (work s), rfl, kept⟩

theorem carried_pending {rule : Rule} {s : State} (works : ∀ o, RuleWork s (rule o s).state) (via : Via) (permitted : Bool) :
    (carried via permitted rule s).pending = s.pending := by
  cases via with
  | held =>
    rw [carried_held, Executed.record_pending]
    exact ruleWork_pending (works .command)
  | broadcast => exact guarded_pending (ruleWork_pending (works .broadcast))

/-- A management row, under either carrier. -/
theorem row_leaves {rule : Rule} {via : Via} {permitted : Bool} {s : State} (works : ∀ o, RuleWork s (rule o s).state) :
    ∃ t, event (carried via permitted rule) s = .next t ∧ t.pending = s.pending :=
  event_leaves (carried_pending works via permitted)

/-- A management row whose rule answers the state as it was. -/
theorem row_of_reading_leaves {rule : Rule} {via : Via} {permitted : Bool} {s : State} (reads : ∀ o, (rule o s).state = s) :
    ∃ t, event (carried via permitted rule) s = .next t ∧ t.pending = s.pending :=
  row_leaves fun o => (reads o).symm ▸ .refl s

theorem exec_leaves (c : Instr) (s : State) : ∃ t, exec c s = .next t ∧ t.pending = s.pending := by
  cases c with
  | rstnFall | rstnRelease => exact ⟨_, rfl, rfl⟩
  | restartTakesEffect | lineIdle | startBitEdge => exact event_leaves (guarded_pending rfl)
  | characterReceived => exact event_leaves (guarded_pending (parse_pending _ _ _))
  | gapTimeout => exact event_leaves (guarded_pending (abortTelegram_pending s .gap))
  | transmitCharacter time =>
    dsimp only [exec, execTransmitCharacter]
    exact event_leaves (beginSending_pending s time)
  | characterSent time =>
    dsimp only [exec, execCharacterSent]
    refine event_leaves ?_
    split
    · exact guarded_pending (beginSending_pending _ time)
    · rfl
  | assign mark offer => exact event_leaves (guarded_pending (takeOffer_pending s mark offer))
  | startBitSample level =>
    refine event_leaves (guarded_pending ?_)
    split <;> rfl
  | timebaseTick b => exact event_leaves (tick_pending s b)
  | periodBoundary | dutyMatch | deadTimeExpiry => exact event_leaves (guarded_pending (tick_pending s _))
  | sampleInstant tripn inputs =>
    dsimp only [exec, execSampleInstant]
    exact event_leaves ((foldl_sampleInput_pending inputs _ _).trans (sampleTrip_pending s tripn))
  | filteredLevelChange line =>
    cases line with
    | trip => exact event_leaves (guarded_pending (sampleTrip_pending s _))
    | input k => exact event_leaves (guarded_pending rfl)
  | identify | readStatus | readCounters => exact row_of_reading_leaves fun _ => rfl
  | readParameter => exact row_of_reading_leaves fun o => readParameter_rule _ o s
  | readMapEntry => exact row_of_reading_leaves fun o => readMapEntry_rule _ _ o s
  | readConversionRecord => exact row_of_reading_leaves fun o => readConversionRecord_rule _ _ o s
  | clearCounters => exact row_leaves fun o => commandRule_rule 0x04 [] o s
  | releaseAddress => exact row_leaves fun o => commandRule_rule 0x50 [] o s
  | acknowledgeAttention => exact row_leaves fun o => acknowledgeAttention_rule _ o s
  | writeParameter => exact row_leaves fun o => writeParameter_rule _ _ o s
  | writeAttentionMask _ v => exact row_leaves fun o => Param.write_rule .attentionMask v o s
  | writeTripFilter _ v => exact row_leaves fun o => Param.write_rule .tripFilter v o s
  | writeInputFilter _ k v => exact row_leaves fun o => Param.write_rule (.inputFilter k) v o s
  | writePeriod _ b v => exact row_leaves fun o => Param.write_rule (.period b) v o s
  | writePrescaler _ b v => exact row_leaves fun o => Param.write_rule (.prescaler b) v o s
  | writeDeadTime _ n v => exact row_leaves fun o => Param.write_rule (.deadTime n) v o s
  | writePolarity _ n v => exact row_leaves fun o => Param.write_rule (.polarity n) v o s
  | writeSafeLevels _ n v => exact row_leaves fun o => Param.write_rule (.safeLevels n) v o s
  | writeGate _ n v => exact row_leaves fun o => Param.write_rule (.gate n) v o s
  | writeTripEnable _ n v => exact row_leaves fun o => Param.write_rule (.tripEnable n) v o s
  | writeRingMode _ n v => exact row_leaves fun o => Param.write_rule (.ringMode n) v o s
  | writeRingDepth _ n v => exact row_leaves fun o => Param.write_rule (.ringDepth n) v o s
  | writeExceptionMask _ n v => exact row_leaves fun o => Param.write_rule (.exceptionMask n) v o s
  | writeMapEntry => exact row_leaves fun o => writeMapEntry_rule _ _ o s
  | writeConversionRecord => exact row_leaves fun o => writeConversionRecord_rule _ _ o s
  | commit => exact row_leaves fun o => commit_rule o s
  | discardStaged => exact row_leaves fun o => discardStaged_rule o s
  | enable => exact row_leaves fun o => (enableChannels_work _ o s).toRule
  | disable => exact row_leaves fun o => (disableChannels_work _ o s).toRule
  | clearFault => exact row_leaves fun o => (clearFaultChannels_work _ o s).toRule
  | clearFlags => exact row_leaves fun o => (clearFlagsChannels_work _ o s).toRule
  | start => exact row_leaves fun o => startTimebases_rule _ o s
  | stop => exact row_leaves fun o => stopTimebases_rule _ o s
  | pushSetpoint => exact row_leaves fun o => pushSetpoint_rule _ _ _ _ o s
  | force => exact row_leaves fun o => forceTrip_rule o s
  | clear => exact row_leaves fun o => clearTrip_rule o s
  | loadSetup => exact row_leaves fun o => loadSetup_rule _ _ o s
  | loadStart => exact row_leaves fun o => loadStart_rule _ o s
  | loadCancel => exact row_leaves fun o => loadCancel_rule _ o s
  | loadStatus => exact row_leaves fun o => loadStatus_rule _ o s
  | restart via =>
    dsimp only [exec, execRestart]
    exact event_leaves ((fixRestartPoint_pending _).trans (carried_pending (fun o => restart_rule o s) via true))

end Sys2Proof.Machine.Queue

open Sys2Proof.Machine.Queue

/-- Settles O1, by the definition of the step on a queue with a front. -/
theorem stepRunsTheFrontCommand : Obligations.StepRunsTheFrontCommand := fun _ _ _ front => step_front front

/-- Settles O2: RSTN_FALL and RSTN_RELEASE answer by their definitions, every other command by an event whose work leaves the
queue; an empty queue has no front. -/
theorem commandsLeaveTheQueue : Obligations.CommandsLeaveTheQueue := ⟨exec_leaves, fun _ empty => step_empty empty⟩
end

section
/-! PROOFS. A relation that each shared operation keeps is kept by every command: the traversal of the rules, of the drive line
and of the rows, made once for the invariants that are proved of every step. -/

open Sys2Proof Sys2Proof.Machine

namespace Sys2Proof.Machine.Steps

/-! ### Relations between the states before and after work -/

/-- What the step invariants read of a state. Everything else (the parser, the telegram in progress, load channels, the attention
flags, the pins, the queue) changes without bearing on them. -/
structure Essence where
  mapA : Vector MapEntry 64
  mapB : Vector MapEntry 64
  convA : Vector ConvRecord 16
  convB : Vector ConvRecord 16
  role : Bank
  address : Byte
  rate : BitVec 2
  counters : Vector Nat 6
  fifo : List LineChar
  highWater : Nat
  rings : Vector Ring 6
  chn : Vector Channel 6
  tb : Vector Timebase 2
  out : Vector Output 6
  tiu : Tiu

def essence (s : State) : Essence where
  mapA := s.map.mapA
  mapB := s.map.mapB
  convA := s.map.convA
  convB := s.map.convB
  role := s.map.role
  address := s.lrx.address
  rate := s.lrx.rate
  counters := s.lrx.counters
  fifo := s.fwd.fifo
  highWater := s.fwd.highWater
  rings := s.rings
  chn := s.chn
  tb := s.tb
  out := s.out
  tiu := s.tiu

theorem reportCommit_essence (s : State) (o : Origin) (failed : Bool) (r : CommitReport) :
    essence (s.reportCommit o failed r) = essence s := by
  unfold State.reportCommit
  dsimp only
  split <;> rfl

theorem cancelWaiting_essence (s : State) : essence s.cancelWaiting = essence s := by
  unfold State.cancelWaiting
  split <;> rfl

theorem fixRestartPoint_essence (s : State) : essence s.fixRestartPoint = essence s := by
  unfold State.fixRestartPoint
  dsimp only
  split <;> rfl

theorem loadFlags_essence (before s : State) (k : Fin 2) : essence (State.loadFlags before s k) = essence s := by
  unfold State.loadFlags
  dsimp only
  split <;> split <;> rfl

theorem chain_essence (before s : State) : essence (State.chain before s) = essence s := by
  unfold State.chain
  split
  · split <;> rfl
  · split
    · exact cancelWaiting_essence s
    · rfl

theorem openData_essence (before s : State) (chars : List LineChar) (h0 h1 : Byte) (len : Nat) :
    essence (State.openData before s chars h0 h1 len) = essence s := by
  unfold State.openData
  dsimp only
  split <;> rfl

/-- A relation that holds over each operation the commands are made of, but for those that may change the active banks or the
station address. -/
structure Kept (K : State → State → Prop) : Prop where
  quiet {s u : State} : essence u = essence s → K s u
  trans {s u v : State} : K s u → K u v → K s v
  settle (s u : State) : K u (settleEdges s u)
  countError (s : State) (e : LineError) : K s (s.countError e)
  enterFifo (s : State) (cs : List LineChar) : K s (s.enterFifo cs)
  shorten (s : State) (fifo : List LineChar) : fifo.length ≤ s.fwd.fifo.length → K s { s with fwd.fifo := fifo }
  clearCounters (o : Origin) (s : State) : K s (clearCounters o s).state
  arm (s : State) (n : Fin 6) : K s (s.arm n)
  disable (s : State) (n : Fin 6) : K s (s.disable n)
  clearSticky (s : State) (n : Fin 6) : K s (s.clearSticky n)
  deliver (s : State) (n : Fin 6) (r : Converted) (origin : SlotOrigin) : s.chn[n].takesPushes = true →
    K s (s.deliver n r origin)
  write (p : Param) (v : Word) (o : Origin) (s : State) : K s (p.write v o s).state
  tick (s : State) (t : Fin 2) : K s (s.tick t)
  startTimebase (s : State) (t : Fin 2) : K s (s.startTimebase t)
  stopTimebase (s : State) (t : Fin 2) : K s (s.stopTimebase t)
  sampleTrip (s : State) (v : Bool) : K s (s.sampleTrip v)
  sampleInput (s : State) (k : Fin 8) (v : Bool) : K s (s.sampleInput k v)
  setTrip (s : State) : K s s.setTrip
  clearTrip (s : State) : s.tiu.trip.level ≠ false → K s s.clearTrip
  stageEntry (s : State) (i : Nat) {r : BitVec 64} {e : MapEntry} : decodeMapEntry r = .ok e →
    K s { s with map := s.map.setStagedEntry i e }
  stageRecord (s : State) (i : Nat) {r : BitVec 128} {c : ConvRecord} : decodeConvRecord r = .ok c →
    K s { s with map := s.map.setStagedRecord i c }
  copyActive (s : State) : K s { s with map := s.map.copyActive }

/-- A relation that holds over every operation but RSTN_RELEASE. -/
structure Closed (K : State → State → Prop) : Prop extends Kept K where
  address (s : State) (a : Byte) : a.toNat ≤ 126 → K s { s with lrx.address := a }
  swap (s : State) : s.map.validate = none → K s { s with map := s.map.swap }
  restarted (s : State) : K s s.restarted

/-- A rule over whose execution the relation holds, whatever the carrier. -/
def Keeps (K : State → State → Prop) (rule : Rule) : Prop := ∀ o s, K s (rule o s).state

section
variable {K : State → State → Prop} (kept : Kept K)
include kept

theorem Kept.refl (s : State) : K s s := kept.quiet rfl

/-- Quiet work in front. -/
theorem Kept.after {s u v : State} (work : K u v) (same : essence u = essence s) : K s v :=
  kept.trans (kept.quiet same) work

/-- Quiet work behind. -/
theorem Kept.before {s u v : State} (work : K s u) (same : essence v = essence u) : K s v :=
  kept.trans work (kept.quiet same)

theorem Kept.foldl {α : Type} (f : State → α → State) (step : ∀ s a, K s (f s a)) (l : List α) (s : State) :
    K s (l.foldl f s) := by
  induction l generalizing s with
  | nil => exact kept.refl s
  | cons a l ih => exact kept.trans (step s a) (ih (f s a))

/-- Work under a condition, and none without it. -/
theorem Kept.guarded {s u : State} {p : Prop} [Decidable p] (work : p → K s u) : K s (if p then u else s) := by
  split
  · exact work ‹p›
  · exact kept.refl s

/-- Behind a test that refuses, the rest of the rule decides. -/
theorem Kept.unless {s : State} {p : Prop} [Decidable p] {result : Result} {reply : List Byte} {e : Executed}
    (rest : ¬p → K s e.state) : K s (if p then refuse result s reply else e).state := by
  split
  · exact kept.refl s
  · exact rest ‹¬p›

/-! ### Each rule -/

theorem Kept.refuse (result : Result) : Keeps K fun _ s => refuse result s := fun _ s => kept.refl s

theorem Kept.acknowledgeAttention (set : Half) : Keeps K (acknowledgeAttention set) :=
  fun _ _ => kept.unless fun _ => kept.quiet rfl

theorem Kept.readParameter (number : Half) : Keeps K (readParameter number) := by
  intro o s
  rw [readParameter_rule]
  exact kept.refl s

theorem Kept.writeParameter (number : Half) (v : Word) : Keeps K (writeParameter number v) := by
  intro o s
  unfold Machine.writeParameter
  split
  · exact kept.write _ v o s
  · exact kept.refl s

theorem Kept.writeMapEntry (index : Byte) (r : BitVec 64) : Keeps K (writeMapEntry index r) := by
  intro o s
  refine kept.unless fun _ => kept.unless fun _ => ?_
  split
  · exact kept.refl s
  · exact kept.stageEntry s _ ‹_›

theorem Kept.writeConversionRecord (index : Byte) (r : BitVec 128) : Keeps K (writeConversionRecord index r) := by
  intro o s
  refine kept.unless fun _ => kept.unless fun _ => ?_
  split
  · exact kept.refl s
  · exact kept.stageRecord s _ ‹_›

theorem Kept.readMapEntry (index selector : Byte) : Keeps K (readMapEntry index selector) := by
  intro o s
  rw [readMapEntry_rule]
  exact kept.refl s

theorem Kept.readConversionRecord (index selector : Byte) : Keeps K (readConversionRecord index selector) := by
  intro o s
  rw [readConversionRecord_rule]
  exact kept.refl s

theorem Kept.discardStaged : Keeps K discardStaged := fun _ s => kept.unless fun _ => kept.copyActive s

theorem Kept.channelControl (refusal : Channel → Option Result) (act : State → Fin 6 → State)
    (step : ∀ s n, K s (act s n)) (set : Byte) : Keeps K (channelControl refusal act set) := by
  intro o s
  rcases channelControl_cases refusal act set o s with same | ⟨done, -⟩
  · rw [same]
    exact kept.refl s
  · rw [done]
    exact kept.foldl act step _ s

theorem Kept.enableChannels (set : Byte) : Keeps K (enableChannels set) := kept.channelControl _ _ kept.arm set

theorem Kept.disableChannels (set : Byte) : Keeps K (disableChannels set) := kept.channelControl _ _ kept.disable set

theorem Kept.clearFaultChannels (set : Byte) : Keeps K (clearFaultChannels set) := kept.channelControl _ _ kept.arm set

theorem Kept.clearFlagsChannels (set : Byte) : Keeps K (clearFlagsChannels set) :=
  kept.channelControl _ _ kept.clearSticky set

theorem Kept.startTimebases (set : Byte) : Keeps K (startTimebases set) := by
  intro o s
  refine kept.unless fun _ => ?_
  split
  · exact kept.refl s
  · exact kept.foldl _ kept.startTimebase _ s

theorem Kept.stopTimebases (set : Byte) : Keeps K (stopTimebases set) :=
  fun _ s => kept.unless fun _ => kept.foldl _ kept.stopTimebase _ s

theorem Kept.pushSetpoint (channel format conversion : Byte) (value : Word) :
    Keeps K (pushSetpoint channel format conversion value) := by
  intro o s
  unfold Machine.pushSetpoint
  split
  · exact kept.refl s
  · split
    · exact kept.refl s
    · split
      · exact kept.refl s
      · split
        · exact kept.deliver s _ _ _ ‹_›
        · exact kept.refl s

theorem Kept.forceTrip : Keeps K forceTrip := fun _ s => kept.setTrip s

theorem Kept.clearTripRule : Keeps K Machine.clearTrip := fun _ s => kept.unless fun level => kept.clearTrip s level

theorem Kept.withLoadChannel (channel : Byte) (rule : Fin 2 → Rule) (each : ∀ k, Keeps K (rule k)) :
    Keeps K (withLoadChannel channel rule) := by
  intro o s
  unfold Machine.withLoadChannel
  split
  · exact each _ o s
  · exact kept.refl s

theorem Kept.loadSetup (channel : Byte) (r : BitVec 64) : Keeps K (loadSetup channel r) := by
  refine kept.withLoadChannel channel _ fun k o s => kept.unless fun _ => ?_
  split
  · exact kept.refl s
  · exact kept.quiet rfl

theorem Kept.loadStart (channel : Byte) : Keeps K (loadStart channel) := by
  refine kept.withLoadChannel channel _ fun k o s => kept.unless fun _ => ?_
  split
  · exact kept.quiet rfl
  · exact kept.unless fun _ => kept.quiet rfl

theorem Kept.loadCancel (channel : Byte) : Keeps K (loadCancel channel) := by
  refine kept.withLoadChannel channel _ fun k o s => ?_
  dsimp only
  split
  · simp only [doneWith]
    split
    · exact kept.quiet (cancelWaiting_essence _)
    · exact kept.quiet rfl
  · exact kept.refl s

theorem Kept.loadStatus (channel : Byte) : Keeps K (loadStatus channel) :=
  kept.withLoadChannel channel _ fun _ _ s => kept.refl s

theorem Kept.restart : Keeps K restart := by
  intro o s
  simp only [Machine.restart, doneWith]
  exact kept.guarded fun _ => kept.quiet rfl

/-! ### Aborts and TXO -/

theorem Kept.abortForward (s : State) : K s s.abortForward := by
  unfold State.abortForward
  split
  · exact kept.before (kept.enterFifo s _) rfl
  · exact kept.before (kept.shorten s _ (List.length_filter_le _ _)) rfl
  · exact kept.before (kept.shorten s _ (List.length_filter_le _ _)) rfl
  all_goals exact kept.quiet rfl

theorem Kept.abortTelegram (s : State) (e : LineError) : K s (s.abortTelegram e) := by
  unfold State.abortTelegram
  exact kept.before (kept.trans (kept.before (kept.abortForward s) rfl) (kept.countError _ e)) rfl

theorem Kept.beginSending (s : State) (time : Nat) : K s (s.beginSending time) := by
  rcases s.beginSending_cases time with same | ⟨c, rest, -, fifo, -, -, begun⟩
  · rw [same]
    exact kept.refl s
  · rw [begun]
    exact kept.before (kept.shorten s rest (by rw [fifo]; exact Nat.le_succ _)) rfl

/-! ### Commands -/

theorem Kept.carried {rule : Rule} (keeps : Keeps K rule) (via : Via) (permitted : Bool) (s : State) :
    K s (carried via permitted rule s) := by
  cases via with
  | held => exact kept.before (keeps .command s) rfl
  | broadcast => exact kept.guarded fun _ => keeps .broadcast s

theorem Kept.event {work : State → State} {s t : State} (ran : event work s = .next t) (works : K s (work s)) : K s t := by
  unfold Machine.event at ran
  split at ran
  · injection ran with result
    rw [← result]
    exact kept.refl s
  · injection ran with result
    rw [← result]
    exact kept.trans works (kept.settle s _)

theorem Kept.row {rule : Rule} {via : Via} {permitted : Bool} {s t : State} (keeps : Keeps K rule)
    (ran : Machine.event (Machine.carried via permitted rule) s = .next t) : K s t :=
  kept.event ran (kept.carried keeps via permitted s)

/-- The commands that carry no commit, no address and no reset of every block. -/
def Ordinary : Instr → Prop
  | .assign _ _ | .releaseAddress _ | .commit _ | .characterReceived _ _ _ _ | .rstnRelease _ | .restartTakesEffect => False
  | _ => True

theorem Kept.exec {c : Instr} {s t : State} (ran : exec c s = .next t) (ordinary : Ordinary c) : K s t := by
  cases c with
  | assign | releaseAddress | commit | characterReceived | rstnRelease | restartTakesEffect => exact ordinary.elim
  | rstnFall =>
    injection ran with result
    rw [← result]
    exact kept.before (kept.shorten s [] (Nat.zero_le _)) rfl
  | gapTimeout =>
    dsimp only [Machine.exec, execGapTimeout] at ran
    exact kept.event ran (kept.guarded fun _ => kept.abortTelegram s .gap)
  | transmitCharacter time =>
    dsimp only [Machine.exec, execTransmitCharacter] at ran
    exact kept.event ran (kept.beginSending s time)
  | characterSent time =>
    dsimp only [Machine.exec, execCharacterSent] at ran
    refine kept.event ran ?_
    split
    · exact kept.guarded fun _ => kept.after (kept.beginSending _ time) rfl
    · exact kept.refl s
  | lineIdle =>
    dsimp only [Machine.exec, execLineIdle] at ran
    exact kept.event ran (kept.guarded fun _ => kept.quiet rfl)
  | startBitEdge =>
    dsimp only [Machine.exec, execStartBitEdge] at ran
    exact kept.event ran (kept.guarded fun _ => kept.quiet rfl)
  | startBitSample level =>
    dsimp only [Machine.exec, execStartBitSample] at ran
    refine kept.event ran (kept.guarded fun _ => ?_)
    split <;> exact kept.quiet rfl
  | timebaseTick b =>
    dsimp only [Machine.exec, execTimebaseTick] at ran
    exact kept.event ran (kept.tick s b)
  | periodBoundary b =>
    dsimp only [Machine.exec, execPeriodBoundary] at ran
    exact kept.event ran (kept.guarded fun _ => kept.tick s b)
  | dutyMatch n =>
    dsimp only [Machine.exec, execDutyMatch] at ran
    exact kept.event ran (kept.guarded fun _ => kept.tick s _)
  | deadTimeExpiry n side =>
    dsimp only [Machine.exec, execDeadTimeExpiry] at ran
    exact kept.event ran (kept.guarded fun _ => kept.tick s _)
  | sampleInstant tripn inputs =>
    dsimp only [Machine.exec, execSampleInstant] at ran
    exact kept.event ran (kept.trans (kept.sampleTrip s tripn) (kept.foldl _ (fun u k => kept.sampleInput u k _) _ _))
  | filteredLevelChange line =>
    dsimp only [Machine.exec, execFilteredLevelChange] at ran
    refine kept.event ran ?_
    cases line with
    | trip => exact kept.guarded fun _ => kept.sampleTrip s _
    | input k => exact kept.guarded fun _ => kept.sampleInput s k _
  | identify | readStatus | readCounters => exact kept.row (fun _ s => kept.refl s) ran
  | clearCounters => exact kept.row kept.clearCounters ran
  | force => exact kept.row kept.forceTrip ran
  | acknowledgeAttention => exact kept.row (kept.acknowledgeAttention _) ran
  | readParameter => exact kept.row (kept.readParameter _) ran
  | writeParameter => exact kept.row (kept.writeParameter _ _) ran
  | writeAttentionMask _ v => exact kept.row (kept.write .attentionMask v) ran
  | writeTripFilter _ v => exact kept.row (kept.write .tripFilter v) ran
  | writeInputFilter _ k v => exact kept.row (kept.write (.inputFilter k) v) ran
  | writePeriod _ b v => exact kept.row (kept.write (.period b) v) ran
  | writePrescaler _ b v => exact kept.row (kept.write (.prescaler b) v) ran
  | writeDeadTime _ n v => exact kept.row (kept.write (.deadTime n) v) ran
  | writePolarity _ n v => exact kept.row (kept.write (.polarity n) v) ran
  | writeSafeLevels _ n v => exact kept.row (kept.write (.safeLevels n) v) ran
  | writeGate _ n v => exact kept.row (kept.write (.gate n) v) ran
  | writeTripEnable _ n v => exact kept.row (kept.write (.tripEnable n) v) ran
  | writeRingMode _ n v => exact kept.row (kept.write (.ringMode n) v) ran
  | writeRingDepth _ n v => exact kept.row (kept.write (.ringDepth n) v) ran
  | writeExceptionMask _ n v => exact kept.row (kept.write (.exceptionMask n) v) ran
  | writeMapEntry => exact kept.row (kept.writeMapEntry _ _) ran
  | readMapEntry => exact kept.row (kept.readMapEntry _ _) ran
  | writeConversionRecord => exact kept.row (kept.writeConversionRecord _ _) ran
  | readConversionRecord => exact kept.row (kept.readConversionRecord _ _) ran
  | discardStaged => exact kept.row kept.discardStaged ran
  | enable => exact kept.row (kept.enableChannels _) ran
  | disable => exact kept.row (kept.disableChannels _) ran
  | clearFault => exact kept.row (kept.clearFaultChannels _) ran
  | clearFlags => exact kept.row (kept.clearFlagsChannels _) ran
  | start => exact kept.row (kept.startTimebases _) ran
  | stop => exact kept.row (kept.stopTimebases _) ran
  | pushSetpoint => exact kept.row (kept.pushSetpoint _ _ _ _) ran
  | clear => exact kept.row kept.clearTripRule ran
  | loadSetup => exact kept.row (kept.loadSetup _ _) ran
  | loadStart => exact kept.row (kept.loadStart _) ran
  | loadCancel => exact kept.row (kept.loadCancel _) ran
  | loadStatus => exact kept.row (kept.loadStatus _) ran
  | restart via =>
    dsimp only [Machine.exec, execRestart] at ran
    exact kept.event ran (kept.before (kept.carried kept.restart via true s) (fixRestartPoint_essence _))

end

/-! ### Operations on the active banks and the address -/

section
variable {K : State → State → Prop} (closed : Closed K)
include closed

theorem Closed.commit : Keeps K commit := by
  intro o s
  unfold Machine.commit
  split
  · exact closed.quiet (reportCommit_essence s o _ _)
  · split
    · exact closed.quiet (reportCommit_essence s o _ _)
    · exact closed.before (closed.swap s ‹_›) (reportCommit_essence _ o _ _)

theorem Closed.releaseAddress : Keeps K releaseAddress := fun _ s => closed.address s 0 (by decide)

/-! ### Payloads of telegrams (R169) -/

theorem Closed.channelAction (set action : Byte) : Keeps K (channelAction set action) := by
  unfold Machine.channelAction
  split
  · exact closed.enableChannels set
  · exact closed.disableChannels set
  · exact closed.clearFaultChannels set
  · exact closed.clearFlagsChannels set
  · exact closed.refuse _

theorem Closed.timebaseAction (set action : Byte) : Keeps K (timebaseAction set action) := by
  unfold Machine.timebaseAction
  split
  · exact closed.startTimebases set
  · exact closed.stopTimebases set
  · exact closed.refuse _

theorem Closed.tripAction (action : Byte) : Keeps K (tripAction action) := by
  unfold Machine.tripAction
  split
  · exact closed.forceTrip
  · exact closed.clearTripRule
  · exact closed.refuse _

/-- Whatever a held or broadcast payload spells. -/
theorem Closed.commandRule (code : Nat) (args : List Byte) : Keeps K (commandRule code args) := by
  unfold Machine.commandRule
  split
  case h_4 => exact closed.clearCounters
  case h_5 => exact closed.acknowledgeAttention _
  case h_6 => exact closed.readParameter _
  case h_7 => exact closed.writeParameter _ _
  case h_8 => exact closed.writeMapEntry _ _
  case h_9 => exact closed.readMapEntry _ _
  case h_10 => exact closed.writeConversionRecord _ _
  case h_11 => exact closed.readConversionRecord _ _
  case h_12 => exact closed.commit
  case h_13 => exact closed.discardStaged
  case h_14 => exact closed.channelAction _ _
  case h_15 => exact closed.timebaseAction _ _
  case h_16 => exact closed.pushSetpoint _ _ _ _
  case h_17 => exact closed.tripAction _
  case h_18 => exact closed.loadSetup _ _
  case h_19 => exact closed.loadStart _
  case h_20 => exact closed.loadCancel _
  case h_21 => exact closed.loadStatus _
  case h_22 => exact closed.releaseAddress
  case h_23 => exact closed.restart
  all_goals exact fun _ s => closed.refl s

theorem Closed.executeHeld (payload : List Byte) (s : State) : K s (executeHeld payload s).state := by
  unfold Machine.executeHeld
  dsimp only
  split
  · exact closed.refl s
  · split
    · exact closed.commandRule _ _ _ s
    · exact closed.refl s

theorem Closed.executeBroadcast (payload : List Byte) (s : State) : K s (executeBroadcast payload s) := by
  unfold Machine.executeBroadcast
  dsimp only
  split
  · exact closed.guarded fun _ => closed.commandRule _ _ _ s
  · exact closed.refl s

/-! ### The end of a telegram -/

theorem Closed.takeOffer (s : State) (mark offer : Byte) : K s (s.takeOffer mark offer) := by
  unfold State.takeOffer
  split
  next taken =>
    obtain ⟨-, -, -, small⟩ := of_decide_eq_true taken
    exact closed.before (closed.address s offer small) rfl
  next => exact closed.quiet rfl

theorem Closed.executeTelegram (s : State) (t : Telegram) : K s (s.executeTelegram t).1 := by
  unfold State.executeTelegram
  dsimp only
  split
  · exact closed.takeOffer s _ _
  · exact closed.before (closed.executeHeld _ s) rfl

theorem Closed.endHeld (s : State) (t : Telegram) (good : Bool) : K s (s.endHeld t good) := by
  unfold State.endHeld
  split
  · exact closed.before (closed.countError s .overrun) rfl
  · split
    · refine closed.before ?_ (fixRestartPoint_essence _)
      exact closed.before (closed.trans (closed.executeTelegram s t) (closed.enterFifo _ _)) rfl
    · exact closed.before (closed.enterFifo s _) rfl

theorem Closed.endPassing (s : State) (good : Bool) (first : Byte) (c : LineChar) : K s (s.endPassing good first c) := by
  unfold State.endPassing
  exact closed.before (closed.trans (closed.shorten s _ (Nat.le_of_eq (List.length_map _))) (closed.enterFifo _ _)) rfl

theorem Closed.endForward (s : State) (t : Telegram) (good : Bool) (first : Byte) (c : LineChar) :
    K s (s.endForward t good first c) := by
  unfold State.endForward
  split
  case h_1 => exact closed.endPassing s good first c
  case h_2 => exact closed.after (closed.endHeld _ t good) rfl
  all_goals exact closed.quiet rfl

theorem Closed.processWrite (s : State) (w : PendingWrite) : K s (s.processWrite w) := by
  unfold State.processWrite
  split
  · exact closed.guarded fun takes => closed.deliver s _ _ _ takes
  · exact closed.refl s

theorem Closed.processHolding (s : State) (cycle : Byte) : K s (s.processHolding cycle) := by
  unfold State.processHolding
  refine closed.before (closed.foldl _ closed.processWrite s.map.holding s) ?_
  dsimp only
  split <;> rfl

theorem Closed.writeRecords (d : Descriptor) (j : Nat) (bytes : List Byte) (e : Nat) (s : State) :
    K s { s with map := (writeRecords d j bytes e s.map).map } := by
  induction j generalizing bytes e s with
  | zero => exact closed.refl s
  | succ j ih =>
    unfold Machine.writeRecords
    split
    case isFalse => exact closed.refl s
    case isTrue =>
      split
      case h_2 => exact closed.refl s
      case h_1 m stored =>
        refine closed.trans ?_ (ih (bytes.drop d.target.recordSize) (e + 1) { s with map := m })
        unfold storeRecord at stored
        split at stored
        · split at stored
          · cases stored
            exact closed.stageEntry s e ‹_›
          · cases stored
        · split at stored
          · cases stored
            exact closed.stageRecord s e ‹_›
          · cases stored

theorem Closed.judge (s : State) (k : Fin 2) : K s (s.judge k) := by
  unfold State.judge
  dsimp only
  split
  · split
    · exact closed.refl s
    · split
      · exact closed.quiet rfl
      · exact closed.before (closed.writeRecords _ _ _ _ s) rfl
  · exact closed.refl s

theorem Closed.loadsAtEnd (s : State) : K s s.loadsAtEnd := by
  have chained : K s (State.chain s (State.loadFlags s (State.loadFlags s ((s.judge 0).judge 1) 0) 1)) :=
    closed.before (closed.trans (closed.judge s 0) (closed.judge _ 1))
      (((chain_essence _ _).trans (loadFlags_essence _ _ _)).trans (loadFlags_essence _ _ _))
  unfold State.loadsAtEnd
  dsimp only
  split
  · exact closed.before (closed.trans chained (closed.commit .auto _)) rfl
  · exact closed.before chained rfl

theorem Closed.endData (s : State) (cycle : Byte) (good : Bool) : K s (s.endData cycle good) := by
  unfold State.endData
  split
  · exact closed.trans (closed.processHolding s cycle) (closed.loadsAtEnd _)
  · exact closed.quiet rfl

theorem Closed.endTelegram (s : State) (t : Telegram) (good : Bool) (first : Byte) (c : LineChar) :
    K s (s.endTelegram t good first c) := by
  have forwarded := closed.endForward s t good first c
  unfold State.endTelegram
  dsimp only
  split
  case h_1 => exact closed.trans forwarded (closed.endData _ _ _)
  case h_2 =>
    exact closed.trans forwarded
      (closed.guarded fun _ => closed.before (closed.executeBroadcast _ _) (fixRestartPoint_essence _))
  all_goals exact forwarded

/-! ### The characters of a telegram -/

theorem Closed.takeCheck2 (s : State) (t : Telegram) (first : Byte) (c : LineChar) : K s (s.takeCheck2 t first c) := by
  unfold State.takeCheck2
  refine closed.trans ?_ (closed.endTelegram _ _ _ _ _)
  split
  · exact closed.quiet rfl
  · exact closed.after (closed.countError _ _) rfl

theorem Closed.passChars (s : State) (cs : List LineChar) : K s (s.passChars cs) := by
  unfold State.passChars
  split
  · exact closed.enterFifo s cs
  · exact closed.before (closed.enterFifo s cs) rfl

theorem Closed.takeCheck1 (s : State) (t : Telegram) (c : LineChar) : K s (s.takeCheck1 t c) := by
  unfold State.takeCheck1
  dsimp only
  split
  case h_1 => exact closed.after (closed.passChars _ _) rfl
  all_goals exact closed.quiet rfl

theorem Closed.forwardPayload (s : State) (t : Telegram) (pos : Nat) (c : LineChar) : K s (s.forwardPayload t pos c) := by
  unfold State.forwardPayload
  split
  case h_1 =>
    unfold State.substitute
    split
    · exact closed.after (closed.passChars _ _) rfl
    · exact closed.after (closed.passChars _ _) rfl
  all_goals exact closed.quiet rfl

theorem Closed.takePayload (s : State) (t : Telegram) (pos : Nat) (c : LineChar) : K s (s.takePayload t pos c) := by
  have forwarded : K s ((s.feedCheck c).forwardPayload t pos c) := closed.after (closed.forwardPayload _ t pos c) rfl
  unfold State.takePayload
  dsimp only
  refine closed.before forwarded ?_
  split <;> rfl

theorem Closed.releaseHeader (s : State) (t : Treatment) (cs : List LineChar) : K s (s.releaseHeader t cs) := by
  unfold State.releaseHeader
  split
  · exact closed.quiet rfl
  all_goals exact closed.after (closed.passChars _ _) rfl

theorem Closed.completeHeader (s : State) (h0 h1 : Byte) (c : LineChar) : K s (s.completeHeader h0 h1 c) := by
  have counted : K s (if lengthAccepted (kindOf h0) c.data.toNat then s else s.countError .length) := by
    split
    · exact closed.refl s
    · exact closed.countError s .length
  unfold State.completeHeader
  dsimp only
  generalize (if lengthAccepted (kindOf h0) c.data.toNat then s else s.countError .length) = u at counted ⊢
  refine closed.trans counted ?_
  split
  · exact closed.before (closed.releaseHeader _ _ _) (openData_essence _ _ _ h0 h1 _)
  · exact closed.before (closed.releaseHeader _ _ _) rfl

theorem Closed.takeHeader (s : State) (h0 : Byte) (h1 : Option Byte) (c : LineChar) : K s (s.takeHeader h0 h1 c) := by
  unfold State.takeHeader
  dsimp only
  split
  · exact closed.quiet rfl
  · exact closed.after (closed.completeHeader _ h0 _ c) rfl

theorem Closed.inside (s : State) (c : LineChar) (good : Bool) (take : State) (taken : K s take) :
    K s (s.inside c good take) := by
  unfold State.inside
  split
  · exact closed.abortTelegram s .framing
  · split
    · exact closed.before (closed.abortTelegram s .truncated) rfl
    · exact taken

theorem Closed.parse (s : State) (c : LineChar) (good : Bool) : K s (s.parse c good) := by
  unfold State.parse
  split
  · split
    · split
      · exact closed.quiet rfl
      · exact closed.before (closed.countError s .framing) rfl
    · exact closed.guarded fun _ => closed.enterFifo s [c]
  · split
    · split
      · exact closed.quiet rfl
      · exact closed.countError s .framing
    · exact closed.refl s
  · exact closed.inside s c good _ (closed.takeHeader s _ _ c)
  · exact closed.inside s c good _ (closed.takePayload s _ _ c)
  · exact closed.inside s c good _ (closed.takeCheck1 s _ c)
  · exact closed.inside s c good _ (closed.takeCheck2 s _ _ c)

/-! ### Every command -/

/-- Every command keeps the relation; RSTN_RELEASE, which overwrites every block, is left to a hypothesis. -/
theorem Closed.exec {c : Instr} {s t : State} (ran : exec c s = .next t) (release : ∀ straps, c = .rstnRelease straps → K s t) :
    K s t := by
  cases c with
  | rstnRelease straps => exact release straps rfl
  | restartTakesEffect =>
    dsimp only [Machine.exec, execRestartTakesEffect] at ran
    exact closed.event ran (closed.guarded fun _ => closed.restarted s)
  | characterReceived =>
    dsimp only [Machine.exec, execCharacterReceived] at ran
    exact closed.event ran (closed.guarded fun _ => closed.after (closed.parse _ _ _) rfl)
  | assign =>
    dsimp only [Machine.exec, execAssign] at ran
    exact closed.event ran (closed.guarded fun _ => closed.takeOffer s _ _)
  | releaseAddress => exact closed.row closed.releaseAddress ran
  | commit => exact closed.row closed.commit ran
  | _ => exact closed.toKept.exec ran trivial

/-- A step takes the front command, or idles. -/
theorem Closed.step (release : ∀ straps s t, Machine.exec (.rstnRelease straps) s = .next t → K s t) {s t : State}
    (ran : step s = .next t) : K s t := by
  unfold Machine.step at ran
  split at ran
  · injection ran with result
    exact result ▸ closed.refl s
  · exact closed.after (closed.exec ran fun straps same => release straps _ t (same ▸ ran)) rfl

end

end Sys2Proof.Machine.Steps
end

section
/-! PROOFS. The bytes of a record: its fields at their places, the field-level checks as ranges of these fields, and the way back
from a stored record to the bytes it was written with (R46, R47, R191). -/

open Sys2Proof Sys2Proof.Machine

namespace Sys2Proof.Machine.Records

/-! ### Bytes of a bit vector (R191) -/

section
variable {w : Nat} (r : BitVec w)

theorem recordByte_getLsbD (i j : Nat) (inside : j < 8) : (recordByte r i).getLsbD j = r.getLsbD (8 * i + j) := by
  simp [recordByte, inside]

/-- A byte of a field that starts at a whole byte. -/
theorem recordByte_extractLsb' (start len i : Nat) (inside : 8 * i + 8 ≤ len) :
    recordByte (r.extractLsb' start len) i = r.extractLsb' (start + 8 * i) 8 := by
  ext j small
  have place : 8 * i + j < len := by omega
  simp [recordByte, place, Nat.add_assoc]

theorem recordByte_succ (i : Nat) : recordByte r (i + 1) = recordByte (r >>> 8) i := by
  ext j small
  simp only [recordByte, BitVec.getElem_extractLsb', BitVec.getLsbD_ushiftRight]
  congr 1
  omega

theorem recordByte_zero_toNat : (recordByte r 0).toNat = r.toNat % 256 := by
  simp [recordByte]

/-- The bytes of a bit vector, read again as a number. -/
theorem leNat_recordBytes (n : Nat) : leNat (recordBytes n r) = r.toNat % 256 ^ n := by
  induction n generalizing r with
  | zero => exact (Nat.mod_one _).symm
  | succ n ih =>
    have tail : recordBytes (n + 1) r = recordByte r 0 :: recordBytes n (r >>> 8) := by
      simp only [recordBytes, List.range_succ_eq_map, List.map_cons, List.map_map]
      exact congrArg _ (List.map_congr_left fun i _ => recordByte_succ r i)
    have shifted : (r >>> 8).toNat = r.toNat / 256 := by rw [BitVec.toNat_ushiftRight, Nat.shiftRight_eq_div_pow]
    rw [tail, leNat, ih, recordByte_zero_toNat, shifted, Nat.pow_succ', Nat.mod_mul]

/-- All bytes of a bit vector give it back. -/
theorem ofNat_leNat_recordBytes (n : Nat) (whole : w = 8 * n) : BitVec.ofNat w (leNat (recordBytes n r)) = r := by
  have range : 2 ^ w = 256 ^ n := by rw [whole, Nat.pow_mul]
  rw [leNat_recordBytes, ← range, Nat.mod_eq_of_lt r.isLt, BitVec.ofNat_toNat, BitVec.setWidth_eq]

end

theorem ofNat_leNat_zeros (w n : Nat) : BitVec.ofNat w (leNat (List.replicate n 0)) = 0 := by
  have zeros : leNat (List.replicate n 0) = 0 := by
    induction n with
    | zero => rfl
    | succ n ih => rw [List.replicate_succ, leNat, ih]; rfl
  rw [zeros]
  rfl

/-! ### Map entries (R46) -/

/-- The flag byte of a used map entry without reserved bits, put together again from its bits. -/
theorem entryFlags_eq (flags : Byte) (clear : flags &&& 0xF8 = 0) (used : flags.getLsbD 0 = true) :
    (1 ||| (if flags.getLsbD 1 then 2 else 0) ||| (if flags.getLsbD 2 then 4 else 0) : Byte) = flags := by
  revert flags; decide

theorem formatOf_code (f : Format) : formatOf f.code = some f := by cases f <;> rfl

theorem code_of_formatOf {b : Byte} {f : Format} (h : formatOf b = some f) : f.code = b := by
  unfold formatOf at h
  split at h
  case h_4 => cases h
  all_goals
    cases h
    exact (BitVec.eq_of_toNat_eq ‹_›).symm

theorem formatOf_isSome_iff (b : Byte) : (formatOf b).isSome = true ↔ b.toNat ≤ 2 := by
  unfold formatOf
  split
  case h_4 not0 not1 not2 =>
    rw [imp_false] at not0 not1 not2
    exact iff_of_false nofun (by omega)
  all_goals simp [*]

theorem conversionIndexValid_iff (b : Byte) : conversionIndexValid b = true ↔ b.toNat ≤ 15 ∨ b = 0xFF := by
  simp [conversionIndexValid, Nat.lt_succ_iff]

/-- The ranges of R46 over the bytes of a used entry. -/
def EntryInRange (r : BitVec 64) : Prop :=
  (recordByte r 1 = 1 ∨ recordByte r 1 = 2 ∨ recordByte r 1 = 4) ∧ (recordByte r 2).toNat ≤ 2 ∧
  (recordByte r 3).toNat ≤ 15 ∧ (recordByte r 4).toNat ≤ 239 ∧ ((recordByte r 7).toNat ≤ 15 ∨ recordByte r 7 = 0xFF)

/-- The used entry that these bytes spell under a format. -/
def entryOf (r : BitVec 64) (format : Format) : MapEntry where
  used := true
  direction := if r.getLsbD 1 then .produce else .consume
  order := if r.getLsbD 2 then .big else .little
  width := recordByte r 1
  format := format
  group := recordByte r 3
  offset := recordByte r 4
  target := recordByte r 5
  source := recordByte r 6
  conversion := recordByte r 7

section
variable {r : BitVec 64}

theorem decodeMapEntry_reserved (reserved : recordByte r 0 &&& 0xF8 ≠ 0) :
    decodeMapEntry r = .error .reservedField := if_pos reserved

variable (clear : recordByte r 0 &&& 0xF8 = 0)
include clear

theorem decodeMapEntry_unused (unused : r.getLsbD 0 = false) : decodeMapEntry r = .ok .unused := by
  have bit := recordByte_getLsbD r 0 0 (by decide)
  exact (if_neg (not_not_intro clear)).trans (if_pos (bit.trans unused))

variable (used : r.getLsbD 0 = true)
include used

theorem decodeMapEntry_used : decodeMapEntry r = match formatOf (recordByte r 2) with
    | none => .error .badArgument
    | some format =>
      if (recordByte r 1 = 1 ∨ recordByte r 1 = 2 ∨ recordByte r 1 = 4) ∧ (recordByte r 3).toNat < 16 ∧
          (recordByte r 4).toNat < 240 ∧ conversionIndexValid (recordByte r 7) = true then .ok (entryOf r format)
      else .error .badArgument := by
  have bit (i : Nat) (inside : i < 8) := recordByte_getLsbD r 0 i inside
  rw [decodeMapEntry]
  refine (if_neg (not_not_intro clear)).trans ((if_neg ?_).trans ?_)
  · rw [bit 0 (by decide)]
    simp [used]
  · simp only [bit 1 (by decide), bit 2 (by decide)]
    rfl

/-- A used entry passes just when its bytes are in range. -/
theorem decodeMapEntry_used_cases :
    (EntryInRange r ∧ ∃ format, formatOf (recordByte r 2) = some format ∧ decodeMapEntry r = .ok (entryOf r format)) ∨
    (¬EntryInRange r ∧ decodeMapEntry r = .error .badArgument) := by
  rw [decodeMapEntry_used clear used]
  have known := formatOf_isSome_iff (recordByte r 2)
  have range : EntryInRange r ↔ (formatOf (recordByte r 2)).isSome = true ∧
      ((recordByte r 1 = 1 ∨ recordByte r 1 = 2 ∨ recordByte r 1 = 4) ∧ (recordByte r 3).toNat < 16 ∧
        (recordByte r 4).toNat < 240 ∧ conversionIndexValid (recordByte r 7) = true) := by
    rw [known, conversionIndexValid_iff, EntryInRange]
    simp only [Nat.lt_succ_iff]
    exact and_left_comm
  rw [range]
  split
  next missing => exact .inr ⟨by simp [missing], rfl⟩
  next format found =>
    split
    next inside => exact .inl ⟨⟨by simp [found], inside⟩, format, found, rfl⟩
    next outside => exact .inr ⟨fun both => outside both.2, rfl⟩

end

/-- What the field-level check of a map entry answers. -/
theorem decodeMapEntry_cases (r : BitVec 64) :
    (recordByte r 0 &&& 0xF8 ≠ 0 ∧ decodeMapEntry r = .error .reservedField) ∨
    (recordByte r 0 &&& 0xF8 = 0 ∧ r.getLsbD 0 = false ∧ decodeMapEntry r = .ok .unused) ∨
    (recordByte r 0 &&& 0xF8 = 0 ∧ r.getLsbD 0 = true ∧ EntryInRange r ∧
      ∃ format, formatOf (recordByte r 2) = some format ∧ decodeMapEntry r = .ok (entryOf r format)) ∨
    (recordByte r 0 &&& 0xF8 = 0 ∧ r.getLsbD 0 = true ∧ ¬EntryInRange r ∧ decodeMapEntry r = .error .badArgument) := by
  by_cases clear : recordByte r 0 &&& 0xF8 = 0
  case neg => exact .inl ⟨clear, decodeMapEntry_reserved clear⟩
  cases used : r.getLsbD 0 with
  | false => exact .inr (.inl ⟨clear, rfl, decodeMapEntry_unused clear used⟩)
  | true =>
    rcases decodeMapEntry_used_cases clear used with ⟨inside, passed⟩ | ⟨outside, refused⟩
    · exact .inr (.inr (.inl ⟨clear, rfl, inside, passed⟩))
    · exact .inr (.inr (.inr ⟨clear, rfl, outside, refused⟩))

/-- An accepted entry is the unused one, or the used one its bytes spell. -/
theorem decodeMapEntry_ok {r : BitVec 64} {e : MapEntry} (accepted : decodeMapEntry r = .ok e) :
    recordByte r 0 &&& 0xF8 = 0 ∧ ((r.getLsbD 0 = false ∧ e = .unused) ∨
      (r.getLsbD 0 = true ∧ ∃ format, formatOf (recordByte r 2) = some format ∧ e = entryOf r format)) := by
  rcases decodeMapEntry_cases r with ⟨-, h⟩ | ⟨clear, unused, h⟩ | ⟨clear, used, -, format, known, h⟩ | ⟨-, -, -, h⟩
  · nomatch accepted.symm.trans h
  · exact ⟨clear, .inl ⟨unused, Except.ok.inj (accepted.symm.trans h)⟩⟩
  · exact ⟨clear, .inr ⟨used, format, known, Except.ok.inj (accepted.symm.trans h)⟩⟩
  · nomatch accepted.symm.trans h

theorem entryOf_bytes {r : BitVec 64} {format : Format} (clear : recordByte r 0 &&& 0xF8 = 0) (used : r.getLsbD 0 = true)
    (known : formatOf (recordByte r 2) = some format) : (entryOf r format).bytes = recordBytes 8 r := by
  have bit (i : Nat) (inside : i < 8) : r.getLsbD i = (recordByte r 0).getLsbD i := by
    rw [recordByte_getLsbD r 0 i inside, Nat.mul_zero, Nat.zero_add]
  have flags := entryFlags_eq (recordByte r 0) clear ((bit 0 (by decide)).symm.trans used)
  have first : bitByte true ||| (if (entryOf r format).direction = .produce then 2 else 0) |||
      (if (entryOf r format).order = .big then 4 else 0) = recordByte r 0 := by
    rw [← flags, entryOf, bit 1 (by decide), bit 2 (by decide)]
    cases (recordByte r 0).getLsbD 1 <;> cases (recordByte r 0).getLsbD 2 <;> rfl
  show [_, _, format.code, _, _, _, _, _] = _
  rw [show (entryOf r format).used = true from rfl, first, code_of_formatOf known]
  rfl

theorem unusedEntry_bytes : MapEntry.unused.bytes = List.replicate 8 0 := by decide

/-- What a stored entry reads back as (R46, R191). -/
theorem bytes_of_decodeMapEntry {r : BitVec 64} {e : MapEntry} (accepted : decodeMapEntry r = .ok e) :
    e.bytes = if r.getLsbD 0 then recordBytes 8 r else List.replicate 8 0 := by
  obtain ⟨clear, ⟨unused, rfl⟩ | ⟨used, format, known, rfl⟩⟩ := decodeMapEntry_ok accepted
  · rw [unused]
    exact unusedEntry_bytes
  · rw [used]
    exact entryOf_bytes clear used known

theorem unusedEntry_fieldValid : MapEntry.unused.fieldValid := rfl

/-- A stored entry passes the field-level check again. -/
theorem fieldValid_of_decodeMapEntry {r : BitVec 64} {e : MapEntry} (accepted : decodeMapEntry r = .ok e) : e.fieldValid := by
  obtain ⟨clear, ⟨-, rfl⟩ | ⟨used, format, known, rfl⟩⟩ := decodeMapEntry_ok accepted
  · exact unusedEntry_fieldValid
  · rw [MapEntry.fieldValid, entryOf_bytes clear used known, ofNat_leNat_recordBytes r 8 rfl]
    exact accepted

/-! ### Conversion records (R47) -/

theorem recordFlags_eq (flags : Byte) (clear : flags &&& 0xF8 = 0) (defined : flags.getLsbD 0 = true)
    (known : flags.getLsbD 2 = false) : (1 ||| (if flags.getLsbD 1 then 2 else 0) : Byte) = flags := by
  revert flags; decide

/-- The policy has two bits, of which the upper one has no meaning. -/
theorem policyOf_eq (flags : Byte) : policyOf flags =
    if flags.getLsbD 2 then none else some (if flags.getLsbD 1 then .lowLimit else .hold) := by
  revert flags; decide

/-- The ranges of R47 over the fields of a defined record. -/
def RecordInRange (r : BitVec 128) : Prop :=
  r.getLsbD 2 = false ∧ (recordByte r 1).toNat ≤ 31 ∧ (r.extractLsb' 64 32).toInt ≤ (r.extractLsb' 96 32).toInt

/-- The defined record that these bytes spell. -/
def recordOf (r : BitVec 128) : ConvRecord where
  defined := true
  policy := if r.getLsbD 1 then .lowLimit else .hold
  shift := recordByte r 1
  gain := r.extractLsb' 16 16
  offset := r.extractLsb' 32 32
  low := r.extractLsb' 64 32
  high := r.extractLsb' 96 32

section
variable {r : BitVec 128}

theorem decodeConvRecord_reserved (reserved : recordByte r 0 &&& 0xF8 ≠ 0) :
    decodeConvRecord r = .error .reservedField := if_pos reserved

variable (clear : recordByte r 0 &&& 0xF8 = 0)
include clear

theorem decodeConvRecord_undefined (undefined : r.getLsbD 0 = false) : decodeConvRecord r = .ok .undefined := by
  have bit := recordByte_getLsbD r 0 0 (by decide)
  exact (if_neg (not_not_intro clear)).trans (if_pos (bit.trans undefined))

variable (defined : r.getLsbD 0 = true)
include defined

open Classical in
theorem decodeConvRecord_defined :
    decodeConvRecord r = if RecordInRange r then .ok (recordOf r) else .error .badArgument := by
  have bit (i : Nat) (inside : i < 8) := recordByte_getLsbD r 0 i inside
  have policy : policyOf (recordByte r 0) = if r.getLsbD 2 then none else some (recordOf r).policy := by
    rw [policyOf_eq, bit 1 (by decide), bit 2 (by decide)]
    rfl
  rw [decodeConvRecord]
  refine (if_neg (not_not_intro clear)).trans ((if_neg ?_).trans ?_)
  · rw [bit 0 (by decide)]
    simp [defined]
  · dsimp only
    rw [policy]
    cases known : r.getLsbD 2 with
    | true => exact (if_neg fun inside => Bool.noConfusion (known.symm.trans inside.1)).symm
    | false =>
      refine if_congr ?_ rfl rfl
      rw [RecordInRange, and_iff_right known, Nat.lt_succ_iff]

end

/-- What the field-level check of a conversion record answers. -/
theorem decodeConvRecord_cases (r : BitVec 128) :
    (recordByte r 0 &&& 0xF8 ≠ 0 ∧ decodeConvRecord r = .error .reservedField) ∨
    (recordByte r 0 &&& 0xF8 = 0 ∧ r.getLsbD 0 = false ∧ decodeConvRecord r = .ok .undefined) ∨
    (recordByte r 0 &&& 0xF8 = 0 ∧ r.getLsbD 0 = true ∧ RecordInRange r ∧ decodeConvRecord r = .ok (recordOf r)) ∨
    (recordByte r 0 &&& 0xF8 = 0 ∧ r.getLsbD 0 = true ∧ ¬RecordInRange r ∧ decodeConvRecord r = .error .badArgument) := by
  by_cases clear : recordByte r 0 &&& 0xF8 = 0
  case neg => exact .inl ⟨clear, decodeConvRecord_reserved clear⟩
  cases defined : r.getLsbD 0 with
  | false => exact .inr (.inl ⟨clear, rfl, decodeConvRecord_undefined clear defined⟩)
  | true =>
    rw [decodeConvRecord_defined clear defined]
    by_cases inside : RecordInRange r
    · exact .inr (.inr (.inl ⟨clear, rfl, inside, if_pos inside⟩))
    · exact .inr (.inr (.inr ⟨clear, rfl, inside, if_neg inside⟩))

/-- An accepted record is the undefined one, or the defined one its bytes spell. -/
theorem decodeConvRecord_ok {r : BitVec 128} {c : ConvRecord} (accepted : decodeConvRecord r = .ok c) :
    recordByte r 0 &&& 0xF8 = 0 ∧ ((r.getLsbD 0 = false ∧ c = .undefined) ∨
      (r.getLsbD 0 = true ∧ r.getLsbD 2 = false ∧ c = recordOf r)) := by
  rcases decodeConvRecord_cases r with ⟨-, h⟩ | ⟨clear, undefined, h⟩ | ⟨clear, defined, ⟨known, -, -⟩, h⟩ | ⟨-, -, -, h⟩
  · nomatch accepted.symm.trans h
  · exact ⟨clear, .inl ⟨undefined, Except.ok.inj (accepted.symm.trans h)⟩⟩
  · exact ⟨clear, .inr ⟨defined, known, Except.ok.inj (accepted.symm.trans h)⟩⟩
  · nomatch accepted.symm.trans h

theorem recordOf_bytes {r : BitVec 128} (clear : recordByte r 0 &&& 0xF8 = 0) (defined : r.getLsbD 0 = true)
    (known : r.getLsbD 2 = false) : (recordOf r).bytes = recordBytes 16 r := by
  have bit (i : Nat) (inside : i < 8) : r.getLsbD i = (recordByte r 0).getLsbD i := by
    rw [recordByte_getLsbD r 0 i inside, Nat.mul_zero, Nat.zero_add]
  have flags := recordFlags_eq (recordByte r 0) clear ((bit 0 (by decide)).symm.trans defined)
    ((bit 2 (by decide)).symm.trans known)
  have first : bitByte true ||| (if (recordOf r).policy = .lowLimit then 2 else 0) = recordByte r 0 := by
    rw [← flags, recordOf, bit 1 (by decide)]
    cases (recordByte r 0).getLsbD 1 <;> rfl
  have field (start bytes : Nat) : recordBytes bytes (r.extractLsb' start (8 * bytes)) =
      (List.range bytes).map fun i => r.extractLsb' (start + 8 * i) 8 := by
    refine List.map_congr_left fun i listed => recordByte_extractLsb' r start _ i ?_
    have := List.mem_range.mp listed
    omega
  show [_, recordByte r 1] ++ recordBytes 2 (r.extractLsb' 16 (8 * 2)) ++ recordBytes 4 (r.extractLsb' 32 (8 * 4)) ++
    recordBytes 4 (r.extractLsb' 64 (8 * 4)) ++ recordBytes 4 (r.extractLsb' 96 (8 * 4)) = _
  rw [show (recordOf r).defined = true from rfl, first, field, field, field, field]
  rfl

theorem undefinedRecord_bytes : ConvRecord.undefined.bytes = List.replicate 16 0 := by decide

/-- What a stored record reads back as (R47, R191). -/
theorem bytes_of_decodeConvRecord {r : BitVec 128} {c : ConvRecord} (accepted : decodeConvRecord r = .ok c) :
    c.bytes = if r.getLsbD 0 then recordBytes 16 r else List.replicate 16 0 := by
  obtain ⟨clear, ⟨undefined, rfl⟩ | ⟨defined, known, rfl⟩⟩ := decodeConvRecord_ok accepted
  · rw [undefined]
    exact undefinedRecord_bytes
  · rw [defined]
    exact recordOf_bytes clear defined known

theorem undefinedRecord_fieldValid : ConvRecord.undefined.fieldValid := rfl

/-- A stored record passes the field-level check again. -/
theorem fieldValid_of_decodeConvRecord {r : BitVec 128} {c : ConvRecord} (accepted : decodeConvRecord r = .ok c) :
    c.fieldValid := by
  obtain ⟨clear, ⟨-, rfl⟩ | ⟨defined, known, rfl⟩⟩ := decodeConvRecord_ok accepted
  · exact undefinedRecord_fieldValid
  · rw [ConvRecord.fieldValid, recordOf_bytes clear defined known, ofNat_leNat_recordBytes r 16 rfl]
    exact accepted

/-- The sixteen bytes are those of the two halves. -/
theorem recordBytes_halves (r : BitVec 128) :
    recordBytes 16 r = recordBytes 8 (r.extractLsb' 0 64) ++ recordBytes 8 (r.extractLsb' 64 64) := by
  have half (start : Nat) : recordBytes 8 (r.extractLsb' start 64) =
      (List.range 8).map fun i => r.extractLsb' (start + 8 * i) 8 := by
    refine List.map_congr_left fun i listed => recordByte_extractLsb' r start _ i ?_
    have := List.mem_range.mp listed
    omega
  rw [half, half]
  rfl

end Sys2Proof.Machine.Records

open Sys2Proof.Machine.Records

/-- Settles O36: the four answers of each field-level check, and the bytes of the record that it stores. -/
theorem recordsReadBackByteForByte : Obligations.RecordsReadBackByteForByte := by
  refine ⟨fun r => ⟨?_, fun e accepted => ?_, fun e accepted used => ?_, fun e accepted unused => ?_, fun _ => rfl, rfl,
    fun clear => ?_, fun x refused => ?_⟩, fun r => ⟨?_, fun c accepted => ?_, fun c accepted defined => ?_,
    fun c accepted undefined => ?_, fun _ => rfl, recordBytes_halves r, fun clear => ?_, fun x refused => ?_⟩⟩
  · rcases decodeMapEntry_cases r with ⟨reserved, h⟩ | ⟨clear, -, h⟩ | ⟨clear, -, -, format, -, h⟩ | ⟨clear, -, -, h⟩
    · exact iff_of_true h reserved
    all_goals exact iff_of_false (by rw [h]; nofun) (not_not_intro clear)
  · refine ⟨?_, bytes_of_decodeMapEntry accepted⟩
    obtain ⟨-, ⟨unused, rfl⟩ | ⟨used, format, -, rfl⟩⟩ := decodeMapEntry_ok accepted
    · exact unused.symm
    · exact used.symm
  · obtain ⟨-, ⟨unused, -⟩ | ⟨-, format, known, rfl⟩⟩ := decodeMapEntry_ok accepted
    · nomatch used.symm.trans unused
    have named {b : Byte} {f : Format} (named : formatOf b = some f) (same : r.extractLsb' 16 8 = b) : format = f :=
      Option.some.inj (known.symm.trans ((congrArg formatOf same).trans named))
    exact ⟨rfl, rfl, rfl, named rfl, named rfl, named rfl, rfl, rfl, rfl, rfl, rfl⟩
  · obtain ⟨-, ⟨-, rfl⟩ | ⟨used, -⟩⟩ := decodeMapEntry_ok accepted
    · rfl
    · nomatch used.symm.trans unused
  · rcases decodeMapEntry_cases r with ⟨reserved, -⟩ | ⟨-, unused, h⟩ | ⟨-, used, inside, format, -, h⟩ | ⟨-, used, outside, h⟩
    · exact absurd clear reserved
    · exact ⟨fun _ used => (nomatch unused.symm.trans used), fun _ => ⟨_, h⟩⟩
    · rw [h]
      exact ⟨fun _ _ => inside, fun _ => ⟨_, rfl⟩⟩
    · rw [h]
      exact ⟨fun passed => passed.elim nofun, fun ranges => absurd (ranges used) outside⟩
  · rcases decodeMapEntry_cases r with ⟨-, h⟩ | ⟨-, -, h⟩ | ⟨-, -, -, format, -, h⟩ | ⟨-, -, -, h⟩
    · exact .inl (Except.error.inj (refused.symm.trans h))
    · nomatch refused.symm.trans h
    · nomatch refused.symm.trans h
    · exact .inr (Except.error.inj (refused.symm.trans h))
  · rcases decodeConvRecord_cases r with ⟨reserved, h⟩ | ⟨clear, -, h⟩ | ⟨clear, -, -, h⟩ | ⟨clear, -, -, h⟩
    · exact iff_of_true h reserved
    all_goals exact iff_of_false (by rw [h]; nofun) (not_not_intro clear)
  · refine ⟨?_, bytes_of_decodeConvRecord accepted⟩
    obtain ⟨-, ⟨undefined, rfl⟩ | ⟨defined, -, rfl⟩⟩ := decodeConvRecord_ok accepted
    · exact undefined.symm
    · exact defined.symm
  · obtain ⟨-, ⟨undefined, -⟩ | ⟨-, -, rfl⟩⟩ := decodeConvRecord_ok accepted
    · nomatch defined.symm.trans undefined
    · exact ⟨rfl, rfl, rfl, rfl, rfl, rfl⟩
  · obtain ⟨-, ⟨-, rfl⟩ | ⟨defined, -⟩⟩ := decodeConvRecord_ok accepted
    · rfl
    · nomatch defined.symm.trans undefined
  · rcases decodeConvRecord_cases r with ⟨reserved, -⟩ | ⟨-, undefined, h⟩ | ⟨-, defined, inside, h⟩ | ⟨-, defined, outside, h⟩
    · exact absurd clear reserved
    · exact ⟨fun _ defined => (nomatch undefined.symm.trans defined), fun _ => ⟨_, h⟩⟩
    · rw [h]
      exact ⟨fun _ _ => inside, fun _ => ⟨_, rfl⟩⟩
    · rw [h]
      exact ⟨fun passed => passed.elim nofun, fun ranges => absurd (ranges defined) outside⟩
  · rcases decodeConvRecord_cases r with ⟨-, h⟩ | ⟨-, -, h⟩ | ⟨-, -, -, h⟩ | ⟨-, -, -, h⟩
    · exact .inl (Except.error.inj (refused.symm.trans h))
    · nomatch refused.symm.trans h
    · nomatch refused.symm.trans h
    · exact .inr (Except.error.inj (refused.symm.trans h))
end

section
/-! PROOFS. The four banks, the station address and the line rate: what leaves them, what a staged write, a copy and a swap make of
the banks, and that every step keeps them sound (R45 to R48, R50, R54, R161). -/

open Sys2Proof Sys2Proof.Machine Sys2Proof.Machine.Steps Sys2Proof.Machine.Records

namespace Sys2Proof.Machine.Banks

/-! ### Work that leaves the banks, the address and the rate -/

/-- The banks with their role, the station address and the line rate. -/
structure Tables where
  mapA : Vector MapEntry 64
  mapB : Vector MapEntry 64
  convA : Vector ConvRecord 16
  convB : Vector ConvRecord 16
  role : Bank
  address : Byte
  rate : BitVec 2

def tablesOf (s : State) : Tables :=
  ⟨s.map.mapA, s.map.mapB, s.map.convA, s.map.convB, s.map.role, s.lrx.address, s.lrx.rate⟩

section
variable {s u : State}

theorem tablesOf_essence (same : essence u = essence s) : tablesOf u = tablesOf s :=
  congrArg (fun e : Essence => Tables.mk e.mapA e.mapB e.convA e.convB e.role e.address e.rate) same

theorem tablesOf_congr (map : u.map = s.map) (lrx : u.lrx = s.lrx) : tablesOf u = tablesOf s := by
  rw [tablesOf, tablesOf, map, lrx]

theorem channelsWork_tables (work : ChannelsWork s u) : tablesOf u = tablesOf s := by
  obtain ⟨lrx, -, map, -⟩ := work.blocks
  exact tablesOf_congr map lrx

theorem lineWork_tables (work : LineWork s u) : tablesOf u = tablesOf s := by
  obtain ⟨map, -⟩ := work.blocks
  rw [tablesOf, tablesOf, map, work.lrx]

/-- Work under a condition, and none without it. -/
theorem guarded_tables {p : Prop} [Decidable p] (work : tablesOf u = tablesOf s) :
    tablesOf (if p then u else s) = tablesOf s := by
  split
  · exact work
  · rfl

/-- Behind a test that refuses, the rest of the rule decides. -/
theorem unless_tables {p : Prop} [Decidable p] {result : Result} {reply : List Byte} {e : Executed}
    (rest : tablesOf e.state = tablesOf s) : tablesOf (if p then refuse result s reply else e).state = tablesOf s := by
  split
  · rfl
  · exact rest

theorem foldl_tables {α : Type} (f : State → α → State) (step : ∀ s a, tablesOf (f s a) = tablesOf s) (l : List α)
    (s : State) : tablesOf (l.foldl f s) = tablesOf s := by
  induction l generalizing s with
  | nil => rfl
  | cons a l ih => exact (ih (f s a)).trans (step s a)

end

theorem setTripEnable_tables (s : State) (n : Fin 6) (on : Bool) : tablesOf (s.setTripEnable n on) = tablesOf s := by
  unfold State.setTripEnable
  dsimp only
  split <;> rfl

/-- No parameter lies in the banks, and none of the address and the rate can be written (R180). -/
theorem write_tables (p : Param) (v : Word) (o : Origin) (s : State) : tablesOf (p.write v o s).state = tablesOf s := by
  cases p with
  | attentionMask | inputFilter | deadTime | exceptionMask => exact unless_tables rfl
  | tripFilter | period | prescaler | polarity => exact unless_tables (unless_tables rfl)
  | ringMode | ringDepth => exact unless_tables (unless_tables (unless_tables rfl))
  | safeLevels =>
    refine unless_tables ?_
    split
    · exact unless_tables rfl
    · rfl
  | gate =>
    refine unless_tables ?_
    split <;> rfl
  | tripEnable n => exact unless_tables (setTripEnable_tables s n _)
  | _ => rfl

theorem boundary_tables (s : State) (t : Fin 2) : tablesOf (s.boundary t) = tablesOf s :=
  (channelsWork_tables (s.boundary_work t)).trans rfl

theorem tick_tables (s : State) (t : Fin 2) : tablesOf (s.tick t) = tablesOf s := by
  refine guarded_tables (u := tickAges t s (s.countTick t)) ?_
  show tablesOf (s.countTick t) = tablesOf s
  rcases s.countTick_cases t with ⟨-, counted⟩ | ⟨-, boundary⟩
  · rw [counted]
    rfl
  · rw [boundary]
    exact boundary_tables s t

theorem startTimebase_tables (s : State) (t : Fin 2) : tablesOf (s.startTimebase t) = tablesOf s :=
  (foldl_tables State.restartAges (fun _ _ => rfl) _ _).trans (boundary_tables _ t)

theorem sampleTrip_tables (s : State) (v : Bool) : tablesOf (s.sampleTrip v) = tablesOf s := by
  rcases s.sampleTrip_cases v with ⟨-, -, sampled⟩ | ⟨-, sampled⟩
  · rw [sampled]; rfl
  · rw [sampled]; rfl

theorem clearTrip_tables (s : State) : tablesOf s.clearTrip = tablesOf s :=
  foldl_tables _ (fun u n => guarded_tables (u := u.endForcing n) rfl) allChannels { s with tiu.latch := false }

/-- A relation that holds wherever banks, address and rate stay, and over staged writes and copies, is kept by every operation
outside the commits and the changes of the address. -/
theorem kept_of_tables {K : State → State → Prop} (same : ∀ {s u}, tablesOf u = tablesOf s → K s u)
    (trans : ∀ {s u v}, K s u → K u v → K s v)
    (stageEntry : ∀ s i {r e}, decodeMapEntry r = .ok e → K s { s with map := s.map.setStagedEntry i e })
    (stageRecord : ∀ s i {r c}, decodeConvRecord r = .ok c → K s { s with map := s.map.setStagedRecord i c })
    (copyActive : ∀ s, K s { s with map := s.map.copyActive }) : Kept K where
  quiet h := same (tablesOf_essence h)
  trans := trans
  settle _ _ := same rfl
  countError _ _ := same rfl
  enterFifo s cs := same (lineWork_tables (s.enterFifo_work cs))
  shorten _ _ _ := same rfl
  clearCounters _ _ := same rfl
  arm _ _ := same rfl
  disable s n := same (channelsWork_tables (s.disable_work n).toChannelsWork)
  clearSticky _ _ := same rfl
  deliver s n r origin _ := same (channelsWork_tables (s.deliver_work n r origin).toChannelsWork)
  write p v o s := same (write_tables p v o s)
  tick s t := same (tick_tables s t)
  startTimebase s t := same (startTimebase_tables s t)
  stopTimebase _ _ := same rfl
  sampleTrip s v := same (sampleTrip_tables s v)
  sampleInput _ _ _ := same rfl
  setTrip _ := same rfl
  clearTrip s _ := same (clearTrip_tables s)
  stageEntry := stageEntry
  stageRecord := stageRecord
  copyActive := copyActive

/-! ### The four banks by their use (R45, R48, R50, R54) -/

section
variable (m : MapUnit)

theorem setStagedEntry_banks (i : Nat) (e : MapEntry) : (m.setStagedEntry i e).role = m.role ∧
    (m.setStagedEntry i e).activeMap = m.activeMap ∧ (m.setStagedEntry i e).stagedMap = m.stagedMap.setIfInBounds i e ∧
    (m.setStagedEntry i e).activeConv = m.activeConv ∧ (m.setStagedEntry i e).stagedConv = m.stagedConv := by
  obtain ⟨mapA, mapB, convA, convB, role, plan, snapshot, holding, lastCycle, report⟩ := m
  cases role <;> exact ⟨rfl, rfl, rfl, rfl, rfl⟩

theorem setStagedRecord_banks (i : Nat) (c : ConvRecord) : (m.setStagedRecord i c).role = m.role ∧
    (m.setStagedRecord i c).activeMap = m.activeMap ∧ (m.setStagedRecord i c).stagedMap = m.stagedMap ∧
    (m.setStagedRecord i c).activeConv = m.activeConv ∧
    (m.setStagedRecord i c).stagedConv = m.stagedConv.setIfInBounds i c := by
  obtain ⟨mapA, mapB, convA, convB, role, plan, snapshot, holding, lastCycle, report⟩ := m
  cases role <;> exact ⟨rfl, rfl, rfl, rfl, rfl⟩

theorem copyActive_eq : m.copyActive =
    { m with mapA := m.activeMap, mapB := m.activeMap, convA := m.activeConv, convB := m.activeConv } := by
  obtain ⟨mapA, mapB, convA, convB, role, plan, snapshot, holding, lastCycle, report⟩ := m
  cases role <;> rfl

/-- Where both banks hold the same, the role does not matter. -/
theorem banks_of_equal (a : Vector MapEntry 64) (c : Vector ConvRecord 16) (role : Bank) :
    let n : MapUnit := { m with role := role, mapA := a, mapB := a, convA := c, convB := c }
    n.activeMap = a ∧ n.stagedMap = a ∧ n.activeConv = c ∧ n.stagedConv = c := by
  cases role <;> exact ⟨rfl, rfl, rfl, rfl⟩

end

/-- The claim over the banks as they are used. -/
structure Sound (entries stagedEntries : Vector MapEntry 64) (records stagedRecords : Vector ConvRecord 16) : Prop where
  activeMap : ∀ i : Fin 64, entries[i].fieldValid
  stagedMap : ∀ i : Fin 64, stagedEntries[i].fieldValid
  activeConv : ∀ i : Fin 16, records[i].fieldValid
  stagedConv : ∀ i : Fin 16, stagedRecords[i].fieldValid
  checked : validateFrom records [] 0 entries.toList = none

theorem banksSound_iff (s : State) :
    BanksSound s ↔ Sound s.map.activeMap s.map.stagedMap s.map.activeConv s.map.stagedConv := by
  have valid : ActiveValid s ↔ validateFrom s.map.activeConv [] 0 s.map.activeMap.toList = none := Iff.rfl
  rw [MapUnit.stagedMap, MapUnit.stagedConv]
  cases role : s.map.role with
  | a =>
    rw [MapUnit.activeMap, MapUnit.activeConv, role] at valid ⊢
    exact ⟨fun ⟨mapA, mapB, convA, convB, checked⟩ => ⟨mapA, mapB, convA, convB, valid.mp checked⟩,
      fun ⟨mapA, mapB, convA, convB, checked⟩ => ⟨mapA, mapB, convA, convB, valid.mpr checked⟩⟩
  | b =>
    rw [MapUnit.activeMap, MapUnit.activeConv, role] at valid ⊢
    exact ⟨fun ⟨mapA, mapB, convA, convB, checked⟩ => ⟨mapB, mapA, convB, convA, valid.mp checked⟩,
      fun ⟨mapB, mapA, convB, convA, checked⟩ => ⟨mapA, mapB, convA, convB, valid.mpr checked⟩⟩

theorem banksSound_of_tables {s u : State} (same : tablesOf u = tablesOf s) (sound : BanksSound s) : BanksSound u := by
  have mapA : u.map.mapA = s.map.mapA := congrArg Tables.mapA same
  have mapB : u.map.mapB = s.map.mapB := congrArg Tables.mapB same
  have convA : u.map.convA = s.map.convA := congrArg Tables.convA same
  have convB : u.map.convB = s.map.convB := congrArg Tables.convB same
  have role : u.map.role = s.map.role := congrArg Tables.role same
  rw [banksSound_iff] at sound ⊢
  simpa only [MapUnit.activeMap, MapUnit.stagedMap, MapUnit.activeConv, MapUnit.stagedConv, mapA, mapB, convA, convB, role]
    using sound

/-! ### Every step -/

/-- Sound banks stay sound. -/
def SoundKept (s u : State) : Prop := BanksSound s → BanksSound u

section
variable (s : State)

theorem stageEntry_sound (i : Nat) {e : MapEntry} (valid : e.fieldValid) :
    SoundKept s { s with map := s.map.setStagedEntry i e } := by
  intro sound
  obtain ⟨activeMap, stagedMap, activeConv, stagedConv, checked⟩ := (banksSound_iff s).mp sound
  obtain ⟨-, active, staged, conv, stagedC⟩ := setStagedEntry_banks s.map i e
  rw [banksSound_iff]
  dsimp only
  rw [active, staged, conv, stagedC]
  refine ⟨activeMap, fun j => ?_, activeConv, stagedConv, checked⟩
  rw [Fin.getElem_fin, Vector.getElem_setIfInBounds]
  split
  · exact valid
  · exact stagedMap j

theorem stageRecord_sound (i : Nat) {c : ConvRecord} (valid : c.fieldValid) :
    SoundKept s { s with map := s.map.setStagedRecord i c } := by
  intro sound
  obtain ⟨activeMap, stagedMap, activeConv, stagedConv, checked⟩ := (banksSound_iff s).mp sound
  obtain ⟨-, active, staged, conv, stagedC⟩ := setStagedRecord_banks s.map i c
  rw [banksSound_iff]
  dsimp only
  rw [active, staged, conv, stagedC]
  refine ⟨activeMap, stagedMap, activeConv, fun j => ?_, checked⟩
  rw [Fin.getElem_fin, Vector.getElem_setIfInBounds]
  split
  · exact valid
  · exact stagedConv j

theorem copyActive_sound : SoundKept s { s with map := s.map.copyActive } := by
  intro sound
  obtain ⟨activeMap, -, activeConv, -, checked⟩ := (banksSound_iff s).mp sound
  obtain ⟨active, staged, conv, stagedC⟩ := banks_of_equal s.map s.map.activeMap s.map.activeConv s.map.role
  rw [banksSound_iff, copyActive_eq]
  dsimp only
  rw [active, staged, conv, stagedC]
  exact ⟨activeMap, activeMap, activeConv, activeConv, checked⟩

/-- A commit makes the banks that passed validation the active ones (R53, R54). -/
theorem swap_sound (passed : s.map.validate = none) : SoundKept s { s with map := s.map.swap } := by
  intro sound
  obtain ⟨-, stagedMap, -, stagedConv, -⟩ := (banksSound_iff s).mp sound
  obtain ⟨active, staged, conv, stagedC⟩ := banks_of_equal s.map s.map.stagedMap s.map.stagedConv s.map.role.other
  rw [banksSound_iff, MapUnit.swap_spec]
  dsimp only
  rw [active, staged, conv, stagedC]
  exact ⟨stagedMap, stagedMap, stagedConv, stagedConv, passed⟩

end

/-- Unused entries and undefined records (R66). -/
theorem reset_sound : BanksSound State.reset := by
  have entries (i : Fin 64) : (Vector.replicate 64 MapEntry.unused)[i].fieldValid := by
    rw [Fin.getElem_fin, Vector.getElem_replicate]
    exact unusedEntry_fieldValid
  have records (i : Fin 16) : (Vector.replicate 16 ConvRecord.undefined)[i].fieldValid := by
    rw [Fin.getElem_fin, Vector.getElem_replicate]
    exact undefinedRecord_fieldValid
  exact ⟨entries, entries, records, records, rfl⟩

theorem banksSound_of_map {s u : State} (same : u.map = s.map) (sound : BanksSound s) : BanksSound u := by
  rw [banksSound_iff, same]
  exact (banksSound_iff s).mp sound

theorem soundKept_closed : Closed SoundKept where
  toKept := kept_of_tables banksSound_of_tables (fun first later sound => later (first sound))
    (fun s i _ _ accepted => stageEntry_sound s i (fieldValid_of_decodeMapEntry accepted))
    (fun s i _ _ accepted => stageRecord_sound s i (fieldValid_of_decodeConvRecord accepted)) copyActive_sound
  address _ _ _ := banksSound_of_map rfl
  swap := swap_sound
  restarted _ _ := banksSound_of_map (s := .reset) rfl reset_sound

/-! ### What changes the active banks, the address and the rate -/

/-- The active banks with their role, and the station address, stay. -/
structure Fixed (s u : State) : Prop where
  role : u.map.role = s.map.role
  activeMap : u.map.activeMap = s.map.activeMap
  activeConv : u.map.activeConv = s.map.activeConv
  address : u.lrx.address = s.lrx.address

theorem Fixed.of_tables {s u : State} (same : tablesOf u = tablesOf s) : Fixed s u := by
  have mapA : u.map.mapA = s.map.mapA := congrArg Tables.mapA same
  have mapB : u.map.mapB = s.map.mapB := congrArg Tables.mapB same
  have convA : u.map.convA = s.map.convA := congrArg Tables.convA same
  have convB : u.map.convB = s.map.convB := congrArg Tables.convB same
  have role : u.map.role = s.map.role := congrArg Tables.role same
  refine ⟨role, ?_, ?_, congrArg Tables.address same⟩
  · rw [MapUnit.activeMap, MapUnit.activeMap, mapA, mapB, role]
  · rw [MapUnit.activeConv, MapUnit.activeConv, convA, convB, role]

theorem Fixed.trans {s u v : State} (first : Fixed s u) (later : Fixed u v) : Fixed s v :=
  ⟨later.role.trans first.role, later.activeMap.trans first.activeMap, later.activeConv.trans first.activeConv,
    later.address.trans first.address⟩

theorem fixed_kept : Kept Fixed :=
  kept_of_tables Fixed.of_tables Fixed.trans
    (fun s i _ e _ =>
      have ⟨role, active, _, conv, _⟩ := setStagedEntry_banks s.map i e
      ⟨role, active, conv, rfl⟩)
    (fun s i _ c _ =>
      have ⟨role, active, _, conv, _⟩ := setStagedRecord_banks s.map i c
      ⟨role, active, conv, rfl⟩)
    (fun s => by
      obtain ⟨active, -, conv, -⟩ := banks_of_equal s.map s.map.activeMap s.map.activeConv s.map.role
      rw [copyActive_eq]
      exact ⟨rfl, active, conv, rfl⟩)

/-- The line rate stays over everything but RSTN_RELEASE (R3, R185). -/
theorem rate_closed : Closed fun s u => u.lrx.rate = s.lrx.rate where
  toKept := kept_of_tables (congrArg Tables.rate) (fun first later => later.trans first) (fun _ _ _ _ _ => rfl)
    (fun _ _ _ _ _ => rfl) (fun _ => rfl)
  address _ _ _ := rfl
  swap _ _ := rfl
  restarted _ := rfl

section
variable {s t : State}

/-- The state behind an event is the one before, or its work with the edges settled. -/
theorem event_cases {work : State → State} (ran : event work s = .next t) : t = s ∨ t = settleEdges s (work s) := by
  unfold event at ran
  split at ran
  · exact .inl (Host.Outcome.next.inj ran).symm
  · exact .inr (Host.Outcome.next.inj ran).symm

/-- ASSIGN and RELEASE_ADDRESS leave MAP alone. -/
theorem exec_assign_map {mark offer : Byte} (ran : exec (.assign mark offer) s = .next t) : t.map = s.map := by
  rcases event_cases ran with rfl | rfl
  · rfl
  · rw [settleEdges_map]
    split
    · unfold State.takeOffer
      split <;> rfl
    · rfl

theorem exec_releaseAddress_map {via : Via} (ran : exec (.releaseAddress via) s = .next t) : t.map = s.map := by
  rcases event_cases ran with rfl | rfl
  · rfl
  · cases via <;> rfl

/-- COMMIT and RESTART keep the station address. -/
theorem exec_commit_address {via : Via} (ran : exec (.commit via) s = .next t) : t.lrx.address = s.lrx.address := by
  have commits (o : Origin) : (commit o s).state.lrx = s.lrx := (commit_work o s).1.blocks.1
  rcases event_cases ran with rfl | rfl
  · rfl
  · cases via with
    | held => exact congrArg Lrx.address (commits .command)
    | broadcast => exact congrArg Lrx.address (commits .broadcast)

theorem exec_restartTakesEffect_address (ran : exec .restartTakesEffect s = .next t) : t.lrx.address = s.lrx.address := by
  rcases event_cases ran with rfl | rfl
  · rfl
  · rw [settleEdges_lrx]
    split <;> rfl

end

end Sys2Proof.Machine.Banks

open Sys2Proof.Machine.Banks

/-- Settles O7: staged writes store accepted records, a commit makes validated banks active, and all other work leaves the banks. -/
theorem stepKeepsTheBanksSound : Obligations.StepKeepsTheBanksSound := by
  intro s t sound ran
  refine soundKept_closed.step (fun straps u v released _ => ?_) ran sound
  cases released
  exact banksSound_of_map (s := .reset) rfl reset_sound

/-- Settles O10: the ordinary commands keep all of it, and each of the others is looked at by itself. -/
theorem banksAddressAndRateChangeOnlyByTheirCommands : Obligations.BanksAddressAndRateChangeOnlyByTheirCommands := by
  refine ⟨fun c s t ran commit character release restart => ?_, fun c s t ran => ⟨fun changed => ?_, fun changed => ?_⟩⟩
  · have same (map : t.map = s.map) :
        t.map.role = s.map.role ∧ t.map.activeMap = s.map.activeMap ∧ t.map.activeConv = s.map.activeConv := by
      rw [map]
      exact ⟨rfl, rfl, rfl⟩
    have ordinary (h : Ordinary c) :
        t.map.role = s.map.role ∧ t.map.activeMap = s.map.activeMap ∧ t.map.activeConv = s.map.activeConv :=
      have fixed := fixed_kept.exec ran h
      ⟨fixed.role, fixed.activeMap, fixed.activeConv⟩
    cases c with
    | commit via => exact absurd rfl (commit via)
    | characterReceived data marker stop time => exact absurd rfl (character data marker stop time)
    | rstnRelease straps => exact absurd rfl (release straps)
    | restartTakesEffect => exact absurd rfl restart
    | assign => exact same (exec_assign_map ran)
    | releaseAddress => exact same (exec_releaseAddress_map ran)
    | _ => exact ordinary trivial
  · have ordinary (h : Ordinary c) : False := changed (fixed_kept.exec ran h).address
    cases c with
    | assign mark offer => exact .inl ⟨mark, offer, rfl⟩
    | releaseAddress via => exact .inr (.inl ⟨via, rfl⟩)
    | characterReceived data marker stop time => exact .inr (.inr (.inl ⟨data, marker, stop, time, rfl⟩))
    | rstnRelease straps => exact .inr (.inr (.inr ⟨straps, rfl⟩))
    | commit => exact absurd (exec_commit_address ran) changed
    | restartTakesEffect => exact absurd (exec_restartTakesEffect_address ran) changed
    | _ => exact (ordinary trivial).elim
  · exact Classical.byContradiction fun other =>
      changed (rate_closed.exec ran fun straps same => absurd ⟨straps, same⟩ other)
end

section
/-! PROOFS. The invariant of the part, taken apart into the records of a channel, its outputs, the timebases, TIU and the drive line;
what each operation makes of these parts, and that every step keeps them (R19 to R30, R87 to R149). -/

open Sys2Proof Sys2Proof.Machine Sys2Proof.Machine.Steps

namespace Sys2Proof.Machine.Invariant

/-! ### The parts of the invariant -/

/-- A channel record with its ring under a period. -/
structure DriveSound (c : Channel) (r : Ring) (period : Nat) : Prop where
  duty_le : c.duty ≤ period
  duty_zero : c.state ≠ .running → c.duty = 0
  saturated_running : c.state ≠ .running → c.saturated = false
  cause_fault : c.cause.isSome = true ↔ c.state = .fault
  depth_range : 1 ≤ r.depth ∧ r.depth ≤ 8
  queued_fill : r.mode = .queued → r.slots.length ≤ r.depth
  latest_fill : r.mode = .latest → r.slots.length ≤ 1
  ring_empty : c.state = .disabled ∨ c.state = .fault → r.slots = []
  dead_time : c.deadTime ≤ 255

/-- The outputs of a channel. -/
structure OutputSound (o : Output) : Prop where
  dead_time : o.stagedDeadTime ≤ 255
  ages : o.ageHi ≤ 255 ∧ o.ageLo ≤ 255
  after_trip : o.afterTrip = true → o.ageHi = 0 ∧ o.ageLo = 0
  safe_levels : ¬(o.safeHi = .active ∧ o.safeLo = .active)

/-- The invariant, part by part. -/
structure Parts (s : State) : Prop where
  drives : ∀ n : Fin 6, DriveSound s.chn[n] s.rings[n] s.tb[timebaseOf n].period
  outputs : ∀ n : Fin 6, OutputSound s.out[n]
  timebases : ∀ t : Fin 2, TimebaseSound s.tb[t]
  tiu : TiuSound s.tiu
  line : LineSound s.lrx s.fwd

theorem channelSound_iff (c : Channel) (r : Ring) (o : Output) (b : Timebase) :
    ChannelSound c r o b ↔ DriveSound c r b.period ∧ OutputSound o :=
  ⟨fun h => ⟨⟨h.duty_le, h.duty_zero, h.saturated_running, h.cause_fault, h.depth_range, h.queued_fill, h.latest_fill,
      h.ring_empty, h.dead_time.1⟩, ⟨h.dead_time.2, h.ages, h.after_trip, h.safe_levels⟩⟩,
    fun ⟨d, o⟩ => ⟨d.duty_le, d.duty_zero, d.saturated_running, d.cause_fault, d.depth_range, d.queued_fill, d.latest_fill,
      d.ring_empty, ⟨d.dead_time, o.dead_time⟩, o.ages, o.after_trip, o.safe_levels⟩⟩

theorem inv_iff (s : State) : Inv s ↔ Parts s := by
  constructor
  · intro ⟨channels, timebases, tiu, line⟩
    exact ⟨fun n => ((channelSound_iff ..).mp (channels n)).1, fun n => ((channelSound_iff ..).mp (channels n)).2, timebases,
      tiu, line⟩
  · intro ⟨drives, outputs, timebases, tiu, line⟩
    exact ⟨fun n => (channelSound_iff ..).mpr ⟨drives n, outputs n⟩, timebases, tiu, line⟩

/-- Sound parts stay sound. -/
def PartsKept (s u : State) : Prop := Parts s → Parts u

/-! ### Work on one block -/

section
variable {s u : State}

theorem parts_of_essence (same : essence u = essence s) : PartsKept s u := by
  intro ⟨drives, outputs, timebases, tiu, line⟩
  have chn : u.chn = s.chn := congrArg Essence.chn same
  have rings : u.rings = s.rings := congrArg Essence.rings same
  have tb : u.tb = s.tb := congrArg Essence.tb same
  have out : u.out = s.out := congrArg Essence.out same
  have tiuSame : u.tiu = s.tiu := congrArg Essence.tiu same
  have address : u.lrx.address = s.lrx.address := congrArg Essence.address same
  have counters : u.lrx.counters = s.lrx.counters := congrArg Essence.counters same
  have fifo : u.fwd.fifo = s.fwd.fifo := congrArg Essence.fifo same
  have highWater : u.fwd.highWater = s.fwd.highWater := congrArg Essence.highWater same
  refine ⟨by rwa [chn, rings, tb], by rwa [out], by rwa [tb], by rwa [tiuSame], ?_⟩
  obtain ⟨a, b, c, d⟩ := line
  exact ⟨by rwa [address], by rwa [counters], by rwa [fifo], by rwa [fifo, highWater]⟩

theorem parts_of_channelsWork (work : ChannelsWork s u)
    (drives : ∀ n : Fin 6, DriveSound s.chn[n] s.rings[n] s.tb[timebaseOf n].period →
      DriveSound u.chn[n] u.rings[n] s.tb[timebaseOf n].period) : PartsKept s u := by
  intro sound
  obtain ⟨lrx, fwd, -, tb, out, tiu, -⟩ := work.blocks
  refine ⟨?_, out ▸ sound.outputs, tb ▸ sound.timebases, tiu ▸ sound.tiu, lrx ▸ fwd ▸ sound.line⟩
  rw [tb]
  exact fun n => drives n (sound.drives n)

/-- Work on channel `n` alone. -/
theorem parts_of_channelWork {n : Fin 6} (work : ChannelWork s u n)
    (own : ∀ period, DriveSound s.chn[n] s.rings[n] period → DriveSound u.chn[n] u.rings[n] period) : PartsKept s u := by
  refine parts_of_channelsWork work.toChannelsWork fun m sound => ?_
  by_cases same : m = n
  · exact same ▸ own _ (same ▸ sound)
  · obtain ⟨chn, rings⟩ := work.others m same
    rwa [chn, rings]

theorem parts_of_lineWork (work : LineWork s u) (line : LineSound s.lrx s.fwd → LineSound u.lrx u.fwd) : PartsKept s u := by
  intro sound
  obtain ⟨-, rings, chn, tb, out, tiu, -⟩ := work.blocks
  exact ⟨chn ▸ rings ▸ tb ▸ sound.drives, out ▸ sound.outputs, tb ▸ sound.timebases, tiu ▸ sound.tiu, line sound.line⟩

end

section
variable (s : State)

theorem parts_of_setOutput (n : Fin 6) {o : Output} (own : OutputSound s.out[n] → OutputSound o) :
    PartsKept s (s.setOutput n o) := by
  intro sound
  refine ⟨sound.drives, fun m => ?_, sound.timebases, sound.tiu, sound.line⟩
  rw [State.setOutput_get]
  split
  · exact own (sound.outputs n)
  · exact sound.outputs m

theorem parts_of_setTiu {u : Tiu} (own : TiuSound s.tiu → TiuSound u) : PartsKept s { s with tiu := u } :=
  fun sound => ⟨sound.drives, sound.outputs, sound.timebases, own sound.tiu, sound.line⟩

/-- The tables bear on none of the parts. -/
theorem parts_of_setMap (m : MapUnit) : PartsKept s { s with map := m } :=
  fun ⟨drives, outputs, timebases, tiu, line⟩ => ⟨drives, outputs, timebases, tiu, line⟩

/-- A timebase record of the same period. -/
theorem parts_of_setTimebase (t : Fin 2) {b : Timebase} (period : b.period = s.tb[t].period)
    (own : TimebaseSound s.tb[t] → TimebaseSound b) : PartsKept s (s.setTimebase t b) := by
  intro sound
  refine ⟨fun n => ?_, sound.outputs, fun r => ?_, sound.tiu, sound.line⟩
  · have same : (s.setTimebase t b).tb[timebaseOf n].period = s.tb[timebaseOf n].period := by
      rw [State.setTimebase_get]
      split
      next own => simp only [period, own]
      next => rfl
    rw [same]
    exact sound.drives n
  · rw [State.setTimebase_get]
    split
    · exact own (sound.timebases t)
    · exact sound.timebases r

end

/-! ### One channel with its ring (R87 to R107) -/

section
variable {c : Channel} {r : Ring} {period : Nat} (sound : DriveSound c r period)
include sound

theorem faulted_sound (cause : Exc) : DriveSound (c.faulted cause) r.emptied period where
  duty_le := Nat.zero_le _
  duty_zero _ := rfl
  saturated_running _ := rfl
  cause_fault := ⟨fun _ => rfl, fun _ => rfl⟩
  depth_range := sound.depth_range
  queued_fill _ := Nat.zero_le _
  latest_fill _ := Nat.zero_le _
  ring_empty _ := rfl
  dead_time := sound.dead_time

theorem rested_sound {st : ChannelState} (quiet : st ≠ .fault) : DriveSound (c.rested st) r.emptied period where
  duty_le := Nat.zero_le _
  duty_zero _ := rfl
  saturated_running _ := rfl
  cause_fault := ⟨fun none => Bool.noConfusion none, fun fault => absurd fault quiet⟩
  depth_range := sound.depth_range
  queued_fill _ := Nat.zero_le _
  latest_fill _ := Nat.zero_le _
  ring_empty _ := rfl
  dead_time := sound.dead_time

theorem flags_sound (sticky mask : ExcSet) : DriveSound { c with sticky := sticky, mask := mask } r period :=
  { sound with }

/-- Slots change in a channel that takes pushes. -/
theorem slots_sound (takes : c.state = .armed ∨ c.state = .running) {slots : List Slot}
    (queued : r.mode = .queued → slots.length ≤ r.depth) (latest : r.mode = .latest → slots.length ≤ 1) :
    DriveSound c { r with slots := slots } period :=
  { sound with
    queued_fill := queued
    latest_fill := latest
    ring_empty := fun resting => by rcases takes with h | h <;> simp [h] at resting }

end

section
variable (s : State) (n : Fin 6)

theorem enterFault_parts (cause : Exc) : PartsKept s (s.enterFault n cause) := by
  refine parts_of_channelWork (s.enterFault_work n cause) fun period sound => ?_
  obtain ⟨chn, rings⟩ := s.enterFault_get n cause
  rw [chn, rings]
  exact faulted_sound sound cause

theorem raise_parts (e : Exc) : PartsKept s (s.raise n e) := by
  refine parts_of_channelWork (s.raise_work n e) fun period sound => ?_
  obtain ⟨chn, rings⟩ := s.raise_get n e
  rw [chn, rings]
  exact flags_sound sound _ _

theorem raise_state (e : Exc) : (s.raise n e).chn[n].state = s.chn[n].state := by rw [(s.raise_get n e).1]

/-- New slots for a channel that takes pushes. -/
theorem setSlots_parts (takes : s.chn[n].state = .armed ∨ s.chn[n].state = .running) {slots : List Slot}
    (queued : s.rings[n].mode = .queued → 1 ≤ s.rings[n].depth → s.rings[n].slots.length ≤ s.rings[n].depth →
      slots.length ≤ s.rings[n].depth)
    (latest : s.rings[n].mode = .latest → slots.length ≤ 1) :
    PartsKept s (s.setRing n { s.rings[n] with slots := slots }) := by
  refine parts_of_channelWork (s.setRing_work n _) fun period sound => ?_
  rw [State.setRing_chn, State.setRing_get, if_pos rfl]
  exact slots_sound sound takes (fun mode => queued mode sound.depth_range.1 (sound.queued_fill mode)) latest

theorem push_parts (slot : Slot) (takes : s.chn[n].state = .armed ∨ s.chn[n].state = .running) :
    PartsKept s (s.push n slot) := by
  cases mode : s.rings[n].mode with
  | latest =>
    rw [Setpoints.push_latest s n slot mode]
    exact setSlots_parts s n takes (fun queued => absurd (mode.symm.trans queued) (by decide)) fun _ => Nat.le_refl 1
  | queued =>
    by_cases room : s.rings[n].slots.length < s.rings[n].depth
    · rw [Setpoints.push_room s n slot mode room]
      refine setSlots_parts s n takes (fun _ _ _ => ?_) fun latest => absurd (mode.symm.trans latest) (by decide)
      rw [List.length_append]
      exact room
    · have full := Nat.not_lt.mp room
      cases masked : s.chn[n].mask.overrun with
      | true =>
        rw [Setpoints.push_full_masked s n slot mode full masked]
        have raised := raise_state s n .overrun
        intro sound
        refine setSlots_parts (s.raise n .overrun) n (raised ▸ takes) (fun _ depth fill => ?_)
          (fun latest => absurd (mode.symm.trans latest) (by decide)) (raise_parts s n .overrun sound)
        rw [List.length_append, List.length_drop, List.length_singleton]
        rw [(s.raise_get n .overrun).2] at depth fill ⊢
        omega
      | false =>
        rw [Setpoints.push_full_unmasked s n slot mode full masked]
        exact fun sound => enterFault_parts _ n .overrun (raise_parts s n .overrun sound)

theorem deliver_parts (r : Converted) (origin : SlotOrigin) (takes : s.chn[n].takesPushes = true) :
    PartsKept s (s.deliver n r origin) := by
  have taking := (Conversion.takesPushes_iff s.chn[n]).mp takes
  have flagged : PartsKept s (Conversion.flagged s n r.raised) ∧
      (Conversion.flagged s n r.raised).chn[n].state = s.chn[n].state := by
    cases r.raised with
    | none => exact ⟨id, rfl⟩
    | some e => exact ⟨raise_parts s n e, raise_state s n e⟩
  obtain ⟨raised, state⟩ := flagged
  cases outcome : r.outcome with
  | slot tag duty =>
    rw [Conversion.deliver_slot s n r origin tag duty outcome]
    exact fun sound => push_parts _ n _ (state ▸ taking) (raised sound)
  | fault cause =>
    rw [Conversion.deliver_fault s n r origin cause outcome]
    exact fun sound => enterFault_parts _ n cause (raised sound)

/-! ### CHANNEL CONTROL (R104 to R108) -/

theorem arm_parts : PartsKept s (s.arm n) := by
  refine parts_of_channelWork (s.arm_work n) fun period sound => ?_
  obtain ⟨chn, rings, -⟩ := s.arm_get n
  rw [chn, rings]
  exact rested_sound sound (by decide)

theorem disable_parts : PartsKept s (s.disable n) := by
  by_cases disabled : s.chn[n].state = .disabled
  · rw [State.disable, if_pos disabled]
    exact id
  · refine parts_of_channelWork (s.disable_work n) fun period sound => ?_
    obtain ⟨chn, rings⟩ := s.disable_get n disabled
    rw [chn, rings]
    exact rested_sound sound (by decide)

theorem clearSticky_parts : PartsKept s (s.clearSticky n) := by
  refine parts_of_channelWork (s.clearSticky_work n) fun period sound => ?_
  rw [State.clearSticky, State.setChannel_get, if_pos rfl, State.setChannel_rings]
  exact flags_sound sound _ _

theorem setMask_parts (mask : ExcSet) : PartsKept s (s.setChannel n { s.chn[n] with mask := mask }) := by
  refine parts_of_channelWork (s.setChannel_work n _) fun period sound => ?_
  rw [State.setChannel_get, if_pos rfl, State.setChannel_rings]
  exact flags_sound sound _ _

end

/-! ### Boundaries and ticks (R114 to R121, R128) -/

/-- A candidate clamped into the range of the period, as the tables write it. -/
theorem clamped_le (candidate : Int) (period : Nat) :
    (if candidate < 0 then 0 else if (period : Int) < candidate then period else candidate.toNat) ≤ period := by
  split
  · exact Nat.zero_le _
  · split
    · exact Nat.le_refl _
    · omega

/-- What a boundary makes of a sound channel is sound under the new period. -/
theorem outcome_sound {s u : State} {n : Fin 6} {old new : Nat} (outcome : BoundaryOutcome s u n new)
    (sound : DriveSound s.chn[n] s.rings[n] old) (staged : s.out[n].stagedDeadTime ≤ 255) :
    DriveSound u.chn[n] u.rings[n] new := by
  /- outside RUNNING the duty is 0, which every period admits -/
  have resting (quiet : s.chn[n].state ≠ .running) :
      DriveSound { s.chn[n] with deadTime := s.out[n].stagedDeadTime } s.rings[n] new :=
    { sound with duty_le := (sound.duty_zero quiet).symm ▸ Nat.zero_le _, dead_time := staged }
  have faulted (e : Exc) (sticky : ExcSet) :
      DriveSound { s.chn[n] with
        deadTime := s.out[n].stagedDeadTime, sticky := sticky, state := .fault, cause := some e, duty := 0, code := .within
        saturated := false } { s.rings[n] with slots := [] } new :=
    { sound with
      duty_le := Nat.zero_le _, duty_zero := fun _ => rfl, saturated_running := fun _ => rfl
      cause_fault := ⟨fun _ => rfl, fun _ => rfl⟩, queued_fill := fun _ => Nat.zero_le _
      latest_fill := fun _ => Nat.zero_le _, ring_empty := fun _ => rfl, dead_time := staged }
  have unfaulted (takes : s.chn[n].state = .armed ∨ s.chn[n].state = .running) : s.chn[n].cause.isSome ≠ true := by
    intro cause
    rcases takes with h | h <;> exact absurd (h.symm.trans (sound.cause_fault.mp cause)) (by decide)
  have taking (takes : s.chn[n].state = .armed ∨ s.chn[n].state = .running) : DriveSound u.chn[n] u.rings[n] new := by
    cases pending : s.chn[n].firstPending with
    | some e =>
      obtain ⟨chn, rings⟩ := outcome.pending e takes pending
      rw [chn, rings]
      exact faulted e _
    | none =>
      cases slots : s.rings[n].slots with
      | cons slot rest =>
        obtain ⟨rings, chn⟩ := outcome.popped slot rest takes pending slots
        have fewer : rest.length ≤ s.rings[n].slots.length := by rw [slots]; exact Nat.le_succ _
        rw [chn, rings]
        exact { sound with
          duty_le := clamped_le _ _
          duty_zero := fun other => absurd rfl other
          saturated_running := fun other => absurd rfl other
          cause_fault := ⟨fun cause => absurd cause (unfaulted takes), fun fault => nomatch fault⟩
          queued_fill := fun mode => Nat.le_trans fewer (sound.queued_fill mode)
          latest_fill := fun mode => Nat.le_trans fewer (sound.latest_fill mode)
          ring_empty := fun resting => by rcases resting with h | h <;> exact nomatch h
          dead_time := staged }
      | nil =>
        rcases takes with armed | running
        · obtain ⟨chn, rings⟩ := outcome.waiting armed pending slots
          rw [chn, rings]
          exact resting (armed ▸ by decide)
        · cases masked : s.chn[n].mask.stale with
          | true =>
            obtain ⟨rings, chn⟩ := outcome.repeated running pending slots masked
            rw [chn, rings]
            exact { sound with
              duty_le := Nat.min_le_right _ _
              duty_zero := fun other => absurd running other
              saturated_running := fun other => absurd running other
              dead_time := staged }
          | false =>
            obtain ⟨rings, chn⟩ := outcome.stale running pending slots masked
            have empty : s.rings[n] = { s.rings[n] with slots := [] } := by rw [← slots]
            rw [chn, rings, empty]
            exact faulted .stale _
  cases state : s.chn[n].state with
  | disabled =>
    obtain ⟨chn, rings⟩ := outcome.resting (.inl state)
    rw [chn, rings]
    exact resting (state ▸ by decide)
  | fault =>
    obtain ⟨chn, rings⟩ := outcome.resting (.inr state)
    rw [chn, rings]
    exact resting (state ▸ by decide)
  | armed => exact taking (.inl state)
  | running => exact taking (.inr state)

theorem restarted_sound {o : Output} (sound : OutputSound o) : OutputSound o.restartAges :=
  { sound with ages := ⟨Nat.zero_le _, Nat.zero_le _⟩, after_trip := fun marked => nomatch marked }

theorem grown_sound {o : Output} (sound : OutputSound o) (level : Bool) : OutputSound (o.grow level) := by
  have ages := o.grow_ages level sound.ages.1 sound.ages.2
  rw [o.grow_settings level]
  exact { sound with ages := ages, after_trip := fun marked => nomatch marked }

/-- The boundary of timebase `t` with the ages of its event. -/
theorem parts_of_partWork {s u : State} {t : Fin 2}
    (work : Timebases.PartWork s u (fun r => r == t) (fun n => timebaseOf n == t))
    (outputs : ∀ n : Fin 6, OutputSound s.out[n] → OutputSound u.out[n]) : PartsKept s u := by
  intro sound
  obtain ⟨lrx, fwd, -, tiu, -⟩ := work.frame
  refine ⟨fun n => ?_, fun n => outputs n (sound.outputs n), fun r => ?_, tiu ▸ sound.tiu, lrx ▸ fwd ▸ sound.line⟩
  · cases own : timebaseOf n == t with
    | true =>
      rw [work.started _ own]
      exact outcome_sound (work.channels n own) (sound.drives n) (sound.outputs n).dead_time
    | false =>
      obtain ⟨chn, rings, -⟩ := work.untouched n own
      rw [work.others _ own, chn, rings]
      exact sound.drives n
  · cases own : r == t with
    | true =>
      rw [work.started r own]
      have staged := (sound.timebases r).staged
      exact ⟨staged, staged, Nat.lt_of_lt_of_le Nat.zero_lt_two staged.1⟩
    | false =>
      rw [work.others r own]
      exact sound.timebases r

section
variable (s : State) (t : Fin 2)

theorem tickAges_sound {u : State} (n : Fin 6) (sound : OutputSound u.out[n]) : OutputSound (tickAges t s u).out[n] := by
  rw [tickAges_out]
  split
  · exact sound
  · split
    · exact restarted_sound sound
    · exact grown_sound sound _

theorem tick_parts : PartsKept s (s.tick t) := by
  cases running : s.tb[t].state with
  | stopped =>
    rw [Timebases.tick_of_stopped s t running]
    exact id
  | running =>
    by_cases inside : s.tb[t].counter + 1 < s.tb[t].period
    · rw [Timebases.tick_inside s t running inside]
      intro sound
      obtain ⟨drives, outputs, timebases, tiu, line⟩ :=
        parts_of_setTimebase s t (b := { s.tb[t] with counter := s.tb[t].counter + 1 }) rfl
          (fun own => { own with counter := inside }) sound
      exact ⟨drives, fun n => tickAges_sound s t n (outputs n), timebases, tiu, line⟩
    · rw [Timebases.tick_at_end s t running (Nat.not_lt.mp inside)]
      have work := (Timebases.bounded_work s t).withOut (tickAges t s (Timebases.bounded s t)).out fun n other => by
        rw [tickAges_out, if_pos (ne_of_beq_false other)]
      refine parts_of_partWork work fun n sound => tickAges_sound s t n ?_
      rw [Timebases.bounded_out]
      exact sound

theorem startTimebase_parts : PartsKept s (s.startTimebase t) := by
  obtain ⟨part, restarted⟩ := Timebases.startTimebase_work s t
  refine parts_of_partWork part fun n sound => ?_
  cases own : timebaseOf n == t with
  | true =>
    rw [restarted n own]
    exact restarted_sound sound
  | false =>
    obtain ⟨-, -, out⟩ := part.untouched n own
    rwa [out]

theorem stopTimebase_parts : PartsKept s (s.stopTimebase t) :=
  parts_of_setTimebase s t rfl fun own => { own with }

end

/-! ### TIU (R138 to R145) -/

section
variable (s : State)

theorem filterLength_pos (code : BitVec 2) : 0 < filterLength code := by
  revert code; decide

theorem sampleTrip_parts (v : Bool) : PartsKept s (s.sampleTrip v) := by
  have sampled (latch : Bool) (set : (s.tiu.trip.sample v).level = false → latch = true) (sound : TiuSound s.tiu) :
      TiuSound { s.tiu with trip := s.tiu.trip.sample v, latch := latch } := by
    obtain ⟨run, code⟩ := Machine.Filter.sample_run s.tiu.trip v sound.trip_run
    exact ⟨run, code ▸ sound.trip_code, sound.input_run, set⟩
  rcases s.sampleTrip_cases v with ⟨-, -, asserted⟩ | ⟨kept, quiet⟩
  · rw [asserted]
    exact fun sound => ⟨sound.drives, sound.outputs, sound.timebases, sampled true (fun _ => rfl) sound.tiu, sound.line⟩
  · rw [quiet]
    refine fun sound => ⟨sound.drives, sound.outputs, sound.timebases, sampled s.tiu.latch (fun low => ?_) sound.tiu, sound.line⟩
    exact sound.tiu.latch ((Bool.not_eq_true _).mp fun high => kept ⟨high, low⟩)

theorem set_inputs_run {u : Tiu} (k : Fin 8) {f : Machine.Filter} (run : f.run < filterLength f.code) (sound : TiuSound u) :
    TiuSound { u with inputs := u.inputs.set k f } := by
  refine ⟨sound.trip_run, sound.trip_code, fun j => ?_, sound.latch⟩
  rw [Fin.getElem_fin, Vector.getElem_set]
  split
  · exact run
  · exact sound.input_run j

theorem sampleInput_parts (k : Fin 8) (v : Bool) : PartsKept s (s.sampleInput k v) := fun sound =>
  ⟨sound.drives, sound.outputs, sound.timebases,
    set_inputs_run k (Machine.Filter.sample_run _ v (sound.tiu.input_run k)).1 sound.tiu, sound.line⟩

theorem setTrip_parts : PartsKept s s.setTrip := fun sound =>
  ⟨sound.drives, sound.outputs, sound.timebases, { sound.tiu with latch := fun _ => rfl }, sound.line⟩

theorem clearTrip_parts (level : s.tiu.trip.level ≠ false) : PartsKept s s.clearTrip := by
  intro sound
  have outputs (n : Fin 6) : OutputSound s.clearTrip.out[n] := by
    rw [Waveform.clearTrip_out]
    split
    · exact { restarted_sound (sound.outputs n) with after_trip := fun _ => ⟨rfl, rfl⟩ }
    · exact sound.outputs n
  have tiu : TiuSound { s.tiu with latch := false } := { sound.tiu with latch := fun low => absurd low level }
  rw [Waveform.clearTrip_eq] at outputs ⊢
  exact ⟨sound.drives, outputs, sound.timebases, tiu, sound.line⟩

theorem setTripEnable_parts (n : Fin 6) (on : Bool) : PartsKept s (s.setTripEnable n on) := by
  intro sound
  have outputs (m : Fin 6) : OutputSound (s.setTripEnable n on).out[m] := by
    rw [Waveform.setTripEnable_out]
    split
    · exact restarted_sound (sound.outputs m)
    · exact sound.outputs m
  rw [Waveform.setTripEnable_eq] at outputs ⊢
  exact ⟨sound.drives, outputs, sound.timebases, { sound.tiu with }, sound.line⟩

end

/-! ### Writes of parameters (R182) -/

/-- Behind a test that refuses, the rest of the rule decides. -/
theorem parts_unless {s : State} {p : Prop} [Decidable p] {result : Result} {reply : List Byte} {e : Executed}
    (rest : ¬p → PartsKept s e.state) : PartsKept s (if p then refuse result s reply else e).state := by
  split
  · exact id
  · exact rest ‹¬p›

/-- A channel outside operation has an empty ring, so any mode and depth fit it. -/
theorem setRing_parts (s : State) (n : Fin 6) (disabled : ¬s.chn[n].state ≠ .disabled) {r : Ring}
    (slots : r.slots = s.rings[n].slots) (depth : 1 ≤ s.rings[n].depth ∧ s.rings[n].depth ≤ 8 → 1 ≤ r.depth ∧ r.depth ≤ 8) :
    PartsKept s (s.setRing n r) := by
  refine parts_of_channelWork (s.setRing_work n r) fun period sound => ?_
  have empty : r.slots = [] := slots.trans (sound.ring_empty (.inl (Classical.not_not.mp disabled)))
  rw [State.setRing_chn, State.setRing_get, if_pos rfl]
  exact { sound with
    depth_range := depth sound.depth_range
    queued_fill := fun _ => empty ▸ Nat.zero_le _
    latest_fill := fun _ => empty ▸ Nat.zero_le _
    ring_empty := fun _ => empty }

theorem write_parts (p : Param) (v : Word) (o : Origin) (s : State) : PartsKept s (p.write v o s).state := by
  cases p with
  | attentionMask => exact parts_unless fun _ => parts_of_essence rfl
  | tripFilter =>
    rw [Param.write, Timebases.writeTripFilter_eq]
    refine parts_unless fun small => parts_unless fun other => parts_of_setTiu s fun sound => ?_
    refine { sound with trip_run := filterLength_pos _, trip_code := fun three => other ?_ }
    have number : v.toNat % 4 = 3 := (BitVec.toNat_ofNat v.toNat 2).symm.trans (congrArg BitVec.toNat three)
    omega
  | inputFilter k =>
    exact parts_unless fun _ => parts_of_setTiu s (set_inputs_run k (filterLength_pos _))
  | period t =>
    rw [Param.write, Timebases.writePeriod_eq]
    refine parts_unless fun small => parts_unless fun large => parts_of_setTimebase s t rfl fun own => ?_
    exact { own with staged := ⟨Nat.not_lt.mp large, Nat.le_of_lt_succ (Nat.not_le.mp small)⟩ }
  | prescaler t =>
    exact parts_unless fun _ => parts_unless fun _ => parts_of_setTimebase s t rfl fun own => { own with }
  | deadTime n =>
    rw [Param.write, Waveform.writeDeadTime_eq]
    refine parts_unless fun small => parts_of_setOutput s n fun own => ?_
    exact { own with dead_time := Nat.le_of_lt_succ (Nat.not_le.mp small) }
  | polarity n => exact parts_unless fun _ => parts_unless fun _ => parts_of_setOutput s n fun own => { own with }
  | safeLevels n =>
    refine parts_unless fun _ => ?_
    split
    · exact parts_unless fun apart => parts_of_setOutput s n fun own => { own with safe_levels := apart }
    · exact id
  | gate n =>
    refine parts_unless fun _ => ?_
    split
    · exact parts_of_setOutput s n fun own => { own with }
    · exact id
  | tripEnable n => exact parts_unless fun _ => setTripEnable_parts s n _
  | ringMode n =>
    exact parts_unless fun _ => parts_unless fun _ => parts_unless fun disabled => setRing_parts s n disabled rfl id
  | ringDepth n =>
    refine parts_unless fun _ => parts_unless fun inside => parts_unless fun disabled =>
      setRing_parts s n disabled rfl fun _ => ?_
    rw [not_or, Nat.not_lt, Nat.not_lt] at inside
    exact inside
  | exceptionMask n =>
    exact parts_unless fun _ => setMask_parts s n _
  | _ => exact id

/-! ### The drive line (R19 to R30, R179, R183) -/

section
variable (s : State)

theorem countError_parts (e : LineError) : PartsKept s (s.countError e) :=
  parts_of_lineWork (s.countError_work e) fun line => { line with counters := s.countError_le e line.counters }

theorem enterFifo_parts (cs : List LineChar) : PartsKept s (s.enterFifo cs) := by
  refine parts_of_lineWork (s.enterFifo_work cs) fun line => ?_
  have level := s.enterFifo_level cs line.level
  have counters : ∀ i : Fin 6, (s.enterFifo cs).lrx.counters[i] ≤ 65535 := by
    unfold State.enterFifo
    dsimp only
    split
    · exact line.counters
    · exact State.countError_le _ .overrun line.counters
  have address : (s.enterFifo cs).lrx.address = s.lrx.address := by rw [(s.enterFifo_work cs).lrx]
  refine ⟨address ▸ line.address, counters, level, ?_⟩
  rw [State.level, s.enterFifo_fwd] at level
  rw [s.enterFifo_fwd]
  exact ⟨Nat.le_max_right _ _, Nat.max_le.mpr ⟨line.high_water.2, level⟩⟩

theorem shorten_parts (fifo : List LineChar) (shorter : fifo.length ≤ s.fwd.fifo.length) :
    PartsKept s { s with fwd.fifo := fifo } :=
  parts_of_lineWork (s.setFwd_work _) fun line => { line with
    level := Nat.le_trans shorter line.level
    high_water := ⟨Nat.le_trans shorter line.high_water.1, line.high_water.2⟩ }

theorem clearCounters_parts (o : Origin) : PartsKept s (clearCounters o s).state := by
  intro sound
  refine ⟨sound.drives, sound.outputs, sound.timebases, sound.tiu, { sound.line with counters := fun i => ?_, high_water := ?_ }⟩
  · show (Vector.replicate 6 0)[i] ≤ 65535
    rw [Fin.getElem_fin, Vector.getElem_replicate]
    exact Nat.zero_le _
  · exact ⟨Nat.le_refl _, sound.line.level⟩

theorem address_parts (a : Byte) (small : a.toNat ≤ 126) : PartsKept s { s with lrx.address := a } := fun sound =>
  ⟨sound.drives, sound.outputs, sound.timebases, sound.tiu, { sound.line with address := small }⟩

end

theorem settle_parts (s u : State) : PartsKept u (settleEdges s u) := by
  intro sound
  refine ⟨sound.drives, fun n => ?_, sound.timebases, sound.tiu, sound.line⟩
  rw [settleEdges_out]
  split
  · exact sound.outputs n
  · exact restarted_sound (sound.outputs n)

/-! ### Resets (R24, R42, R101, R123, R124, R136, R150) -/

theorem reset_parts : Parts State.reset := by
  have chn (n : Fin 6) : State.reset.chn[n] = .reset := Vector.getElem_replicate _
  have rings (n : Fin 6) : State.reset.rings[n] = .reset := Vector.getElem_replicate _
  have out (n : Fin 6) : State.reset.out[n] = .reset := Vector.getElem_replicate _
  have tb (t : Fin 2) : State.reset.tb[t] = .reset := Vector.getElem_replicate _
  have inputs (k : Fin 8) : State.reset.tiu.inputs[k] = ⟨false, 0, 0⟩ := Vector.getElem_replicate _
  have counters (i : Fin 6) : State.reset.lrx.counters[i] = 0 := Vector.getElem_replicate _
  refine ⟨fun n => ?_, fun n => ?_, fun t => ?_, ⟨by decide, by decide, fun k => ?_, by decide⟩,
    ⟨by decide, fun i => ?_, by decide, by decide⟩⟩
  · rw [chn, rings, tb]
    exact ⟨by decide, fun _ => rfl, fun _ => rfl, by decide, by decide, by decide, by decide, fun _ => rfl, by decide⟩
  · rw [out]
    exact ⟨by decide, by decide, by decide, by decide⟩
  · rw [tb]
    exact ⟨by decide, by decide, by decide⟩
  · rw [inputs]
    decide
  · rw [counters]
    decide

/-- A reset keeps nothing of the line side but an address in range. -/
theorem parts_of_reset (u : State) (blocks : u.chn = State.reset.chn ∧ u.rings = State.reset.rings ∧ u.out = State.reset.out ∧
      u.tb = State.reset.tb ∧ u.tiu = State.reset.tiu ∧ u.fwd = State.reset.fwd)
    (counters : u.lrx.counters = State.reset.lrx.counters) (address : u.lrx.address.toNat ≤ 126) : Parts u := by
  obtain ⟨drives, outputs, timebases, tiu, line⟩ := reset_parts
  obtain ⟨chn, rings, out, tb, tiuSame, fwd⟩ := blocks
  refine ⟨by rwa [chn, rings, tb], by rwa [out], by rwa [tb], by rwa [tiuSame], address, by rw [counters]; exact line.counters, ?_, ?_⟩
  · rw [fwd]; exact line.level
  · rw [fwd]; exact line.high_water

/-! ### Every step -/

theorem parts_closed : Closed PartsKept where
  quiet := parts_of_essence
  trans first later sound := later (first sound)
  settle := settle_parts
  countError := countError_parts
  enterFifo := enterFifo_parts
  shorten := shorten_parts
  clearCounters o s := clearCounters_parts s o
  arm := arm_parts
  disable := disable_parts
  clearSticky := clearSticky_parts
  deliver := deliver_parts
  write := write_parts
  tick := tick_parts
  startTimebase := startTimebase_parts
  stopTimebase := stopTimebase_parts
  sampleTrip := sampleTrip_parts
  sampleInput := sampleInput_parts
  setTrip := setTrip_parts
  clearTrip := clearTrip_parts
  stageEntry s _ _ _ _ := parts_of_setMap s _
  stageRecord s _ _ _ _ := parts_of_setMap s _
  copyActive s := parts_of_setMap s _
  address := address_parts
  swap s _ := parts_of_setMap s _
  restarted s sound := parts_of_reset s.restarted ⟨rfl, rfl, rfl, rfl, rfl, rfl⟩ rfl sound.line.address

end Sys2Proof.Machine.Invariant

open Sys2Proof.Machine.Invariant

/-- Settles O5: the four invariants of the reset state, each beside the lemmas about its steps. -/
theorem resetStateIsSound : Obligations.ResetStateIsSound := by
  refine ⟨(inv_iff _).mpr reset_parts, Banks.reset_sound, Loads.reset_sound, rfl, rfl, rfl, rfl, ⟨rfl, rfl, rfl, fun k => ?_⟩,
    fun _ none => nomatch none⟩
  rw [show State.reset.lch[k] = .reset from Vector.getElem_replicate _]
  rfl

/-- Settles O6: each operation keeps each part of the invariant, and the commands are made of these operations. -/
theorem stepKeepsTheInvariant : Obligations.StepKeepsTheInvariant := by
  intro s t inv ran
  rw [inv_iff] at inv ⊢
  refine parts_closed.step (fun straps u v released _ => ?_) ran inv
  cases released
  exact parts_of_reset _ ⟨rfl, rfl, rfl, rfl, rfl, rfl⟩ rfl (Nat.zero_le _)
end

section
/-! PROOFS. The telegram in progress: what the blocks hold of it, and what each character makes of that
(R7 to R17, R25 to R38, R58 to R71). -/

open Sys2Proof Sys2Proof.Machine

namespace Sys2Proof.Machine.Progress

/-! ### What the agreement speaks of -/

/-- The parser, the gap timer and the DATA work in progress stand. -/
structure TelegramKept (s u : State) : Prop where
  parser : u.lrx.parser = s.lrx.parser
  gap : s.lrx.gap = none → u.lrx.gap = none
  plan : u.map.plan = s.map.plan
  snapshot : u.map.snapshot = s.map.snapshot
  holding : u.map.holding = s.map.holding
  captures : ∀ k : Fin 2, u.lch[k].capture = s.lch[k].capture

theorem TelegramKept.refl (s : State) : TelegramKept s s := ⟨rfl, id, rfl, rfl, rfl, fun _ => rfl⟩

theorem TelegramKept.trans {s u v : State} (first : TelegramKept s u) (later : TelegramKept u v) : TelegramKept s v :=
  ⟨later.parser.trans first.parser, fun stopped => later.gap (first.gap stopped), later.plan.trans first.plan,
    later.snapshot.trans first.snapshot, later.holding.trans first.holding,
    fun k => (later.captures k).trans (first.captures k)⟩

theorem kept_of_blocks {s u : State} (parser : u.lrx.parser = s.lrx.parser) (gap : u.lrx.gap = s.lrx.gap)
    (map : u.map = s.map) (lch : u.lch = s.lch) : TelegramKept s u :=
  ⟨parser, gap.trans, by rw [map], by rw [map], by rw [map], fun k => by rw [lch]⟩

theorem kept_of_lineWork {s u : State} (work : LineWork s u) : TelegramKept s u := by
  obtain ⟨map, -, -, -, -, -, lch⟩ := work.blocks
  exact kept_of_blocks (by rw [work.lrx]) (by rw [work.lrx]) map lch

theorem kept_of_ruleWork {s u : State} (work : RuleWork s u) : TelegramKept s u :=
  ⟨by rw [work.lrx], by rw [work.lrx]; exact id, by rw [work.map], by rw [work.map], by rw [work.map], work.captures⟩

theorem TelegramKept.noData {s u : State} (kept : TelegramKept s u) (none : NoData s) : NoData u :=
  ⟨kept.plan.trans none.plan, kept.snapshot.trans none.snapshot, kept.holding.trans none.holding,
    fun k => (kept.captures k).trans (none.captures k)⟩

/-- No character of the FIFO waits for its check. -/
def Unmarked (s : State) : Prop := ∀ c ∈ s.fwd.fifo, c.wait = false

theorem waitsOnlyIf_false_iff (s : State) : waitsOnlyIf s False ↔ Unmarked s :=
  forall₂_congr fun c _ => by cases c.wait <;> simp

theorem unmarked_of_waits {s : State} {allowed : Prop} (waits : waitsOnlyIf s allowed) (never : ¬allowed) : Unmarked s :=
  (waitsOnlyIf_false_iff s).mp fun c listed marked => never (waits c listed marked)

theorem waits_of_unmarked {s : State} (unmarked : Unmarked s) (allowed : Prop) : waitsOnlyIf s allowed :=
  fun c listed marked => absurd (marked.symm.trans (unmarked c listed)) (by decide)

/-- FWD holds nothing of a telegram. -/
structure FwdClosed (s : State) : Prop where
  state : s.fwd.state = .idle
  stage : s.fwd.stage = []
  hold : s.fwd.hold = []
  unmarked : Unmarked s

/-- No telegram is in progress. -/
structure Resting (s : State) : Prop extends FwdClosed s where
  gap : s.lrx.gap = none
  data : NoData s

section
variable {s : State}

/-- Between telegrams. -/
theorem telegramSound_resting (parser : s.lrx.parser = .idle ∨ s.lrx.parser = .skip) : TelegramSound s ↔ Resting s := by
  have arm : (s.fwd.state = .idle ∧ s.fwd.stage = [] ∧ s.fwd.hold = [] ∧ s.lrx.gap = none ∧ NoData s ∧ waitsOnlyIf s False) ↔
      Resting s := by
    rw [waitsOnlyIf_false_iff]
    exact ⟨fun ⟨state, stage, hold, gap, data, unmarked⟩ => ⟨⟨state, stage, hold, unmarked⟩, gap, data⟩,
      fun ⟨⟨state, stage, hold, unmarked⟩, gap, data⟩ => ⟨state, stage, hold, gap, data, unmarked⟩⟩
  unfold TelegramSound
  rcases parser with parser | parser <;> rw [parser] <;> exact arm

theorem telegramSound_header {h0 : Byte} {h1 : Option Byte} (parser : s.lrx.parser = .header h0 h1) :
    TelegramSound s ↔ s.fwd.state = .staging ∧ s.fwd.stage.length = (if h1.isSome then 2 else 1) ∧
      (∀ c ∈ s.fwd.stage, c.wait = false) ∧ s.fwd.hold = [] ∧ NoData s ∧ waitsOnlyIf s False := by
  unfold TelegramSound; rw [parser]

theorem telegramSound_payload {t : Telegram} {pos : Nat} (parser : s.lrx.parser = .payload t pos) :
    TelegramSound s ↔ pos < t.len ∧ Carried s t pos 0 ∧ waitsOnlyIf s False := by
  unfold TelegramSound; rw [parser]

theorem telegramSound_check {t : Telegram} {first : Option Byte} (parser : s.lrx.parser = .check t first) :
    TelegramSound s ↔ Carried s t t.len (if first.isSome then 1 else 0) ∧
      waitsOnlyIf s (first.isSome = true ∧ s.fwd.state = .passing) := by
  unfold TelegramSound; rw [parser]

end

/-- The agreement is about the telegram in progress and FWD's part of it. -/
theorem telegramSound_of_kept {s u : State} (kept : TelegramKept s u) (state : u.fwd.state = s.fwd.state)
    (stage : u.fwd.stage = s.fwd.stage) (hold : u.fwd.hold = s.fwd.hold) (fifo : ∀ c ∈ u.fwd.fifo, c ∈ s.fwd.fifo)
    (sound : TelegramSound s) : TelegramSound u := by
  have waits {allowed : Prop} (h : waitsOnlyIf s allowed) : waitsOnlyIf u allowed := fun c listed => h c (fifo c listed)
  have carried {t : Telegram} {pos checks : Nat} (h : Carried s t pos checks) : Carried u t pos checks := by
    obtain ⟨empty, unmarked, held, passed, data, other⟩ := h
    exact ⟨stage.trans empty, hold ▸ unmarked, by rwa [state, hold], by rwa [state, hold],
      by rwa [kept.plan, kept.snapshot, kept.holding], fun treatment => kept.noData (other treatment)⟩
  cases parser : s.lrx.parser with
  | idle =>
    obtain ⟨⟨idle, noStage, noHold, unmarked⟩, gap, data⟩ := (telegramSound_resting (.inl parser)).mp sound
    exact (telegramSound_resting (.inl (kept.parser.trans parser))).mpr ⟨⟨state.trans idle, stage.trans noStage,
      hold.trans noHold, fun c listed => unmarked c (fifo c listed)⟩, kept.gap gap, kept.noData data⟩
  | skip =>
    obtain ⟨⟨idle, noStage, noHold, unmarked⟩, gap, data⟩ := (telegramSound_resting (.inr parser)).mp sound
    exact (telegramSound_resting (.inr (kept.parser.trans parser))).mpr ⟨⟨state.trans idle, stage.trans noStage,
      hold.trans noHold, fun c listed => unmarked c (fifo c listed)⟩, kept.gap gap, kept.noData data⟩
  | header h0 h1 =>
    obtain ⟨staging, length, unmarked, noHold, data, free⟩ := (telegramSound_header parser).mp sound
    exact (telegramSound_header (kept.parser.trans parser)).mpr ⟨state.trans staging, stage ▸ length, stage ▸ unmarked,
      hold.trans noHold, kept.noData data, waits free⟩
  | payload t pos =>
    obtain ⟨inside, telegram, free⟩ := (telegramSound_payload parser).mp sound
    exact (telegramSound_payload (kept.parser.trans parser)).mpr ⟨inside, carried telegram, waits free⟩
  | check t first =>
    obtain ⟨telegram, free⟩ := (telegramSound_check parser).mp sound
    refine (telegramSound_check (kept.parser.trans parser)).mpr ⟨carried telegram, ?_⟩
    rw [state]
    exact waits free

/-! ### The FIFO (R27, R29) -/

section
variable (s : State)

theorem enterFifo_unmarked {cs : List LineChar} (before : Unmarked s) (chars : ∀ c ∈ cs, c.wait = false) :
    Unmarked (s.enterFifo cs) := by
  intro c listed
  rw [s.enterFifo_fwd] at listed
  rcases List.mem_append.mp listed with old | new
  · exact before c old
  · exact chars c (List.mem_of_mem_take new)

/-- What entering in PASSING leaves of FWD but the FIFO and its mark. -/
theorem passChars_fwd (cs : List LineChar) : (s.passChars cs).fwd.fifo = (s.enterFifo cs).fwd.fifo ∧
    (s.passChars cs).fwd.stage = s.fwd.stage ∧ (s.passChars cs).fwd.hold = s.fwd.hold ∧
    (s.passChars cs).fwd.state = if s.fits cs then s.fwd.state else .cut := by
  unfold State.passChars
  split <;> simp only [s.enterFifo_fwd, and_self]

end

/-! ### Aborts and new telegrams (R7, R17, R26, R34, R35) -/

section
variable {s : State}

theorem abortForward_unmarked (stage : ∀ c ∈ s.fwd.stage, c.wait = false)
    (fifo : s.fwd.state ≠ .passing → Unmarked s) : Unmarked s.abortForward := by
  unfold State.abortForward
  split
  case h_1 staging => exact enterFifo_unmarked s (fifo (by rw [staging]; decide)) stage
  case h_2 => exact fun c listed => Bool.not_eq_true _ ▸ by simpa using (List.mem_filter.mp listed).2
  case h_3 => exact fun c listed => Bool.not_eq_true _ ▸ by simpa using (List.mem_filter.mp listed).2
  case h_4 holding => exact fifo (by rw [holding]; decide)
  case h_5 idle => exact fifo (by rw [idle]; decide)

theorem abortTelegram_resting (e : LineError) (stage : ∀ c ∈ s.fwd.stage, c.wait = false)
    (fifo : s.fwd.state ≠ .passing → Unmarked s) : Resting (s.abortTelegram e) := by
  obtain ⟨state, noStage, noHold, -⟩ := s.abortForward_fwd
  obtain ⟨-, -, -, -, -, -, map, lch, -, gap⟩ := s.abortTelegram_frame e
  refine ⟨⟨state, noStage, noHold, abortForward_unmarked stage fifo⟩, gap, ?_⟩
  exact ⟨by rw [map], by rw [map], by rw [map], fun k => by rw [lch, Fin.getElem_fin, Vector.getElem_map]⟩

theorem abortTelegram_sound (e : LineError) (stage : ∀ c ∈ s.fwd.stage, c.wait = false)
    (fifo : s.fwd.state ≠ .passing → Unmarked s) : TelegramSound (s.abortTelegram e) :=
  (telegramSound_resting (.inr rfl)).mpr (abortTelegram_resting e stage fifo)

theorem beginTelegram_sound {c : LineChar} (resting : Resting s) (plain : c.wait = false) :
    TelegramSound (s.beginTelegram c) := by
  obtain ⟨⟨-, -, hold, unmarked⟩, -, ⟨plan, snapshot, holding, captures⟩⟩ := resting
  refine (telegramSound_header (h0 := c.data) (h1 := none) rfl).mpr
    ⟨rfl, rfl, fun d listed => ?_, hold, ⟨plan, snapshot, holding, captures⟩, (waitsOnlyIf_false_iff _).mpr unmarked⟩
  rw [List.mem_singleton.mp listed]
  exact plain

/-- In every agreement: the staged characters carry no wait mark, nor does the FIFO outside PASSING. -/
theorem abortable (sound : TelegramSound s) :
    (∀ c ∈ s.fwd.stage, c.wait = false) ∧ (s.fwd.state ≠ .passing → Unmarked s) := by
  have none_listed (stage : s.fwd.stage = []) : ∀ c ∈ s.fwd.stage, c.wait = false := by
    rw [stage]
    exact fun c listed => nomatch listed
  cases parser : s.lrx.parser with
  | idle =>
    have resting := (telegramSound_resting (.inl parser)).mp sound
    exact ⟨none_listed resting.stage, fun _ => resting.unmarked⟩
  | skip =>
    have resting := (telegramSound_resting (.inr parser)).mp sound
    exact ⟨none_listed resting.stage, fun _ => resting.unmarked⟩
  | header h0 h1 =>
    obtain ⟨-, -, unmarked, -, -, free⟩ := (telegramSound_header parser).mp sound
    exact ⟨unmarked, fun _ => (waitsOnlyIf_false_iff s).mp free⟩
  | payload t pos =>
    obtain ⟨-, carried, free⟩ := (telegramSound_payload parser).mp sound
    exact ⟨none_listed carried.stage, fun _ => (waitsOnlyIf_false_iff s).mp free⟩
  | check t first =>
    obtain ⟨carried, waits⟩ := (telegramSound_check parser).mp sound
    exact ⟨none_listed carried.stage, fun other => unmarked_of_waits waits fun h => other h.2⟩

/-- A framing error or a header character inside a telegram aborts it (R14, R16). -/
theorem inside_sound {c : LineChar} {good : Bool} {take : State} (sound : TelegramSound s) (plain : c.wait = false)
    (taken : TelegramSound take) : TelegramSound (s.inside c good take) := by
  obtain ⟨stage, fifo⟩ := abortable sound
  unfold State.inside
  split
  · exact abortTelegram_sound .framing stage fifo
  · split
    · exact beginTelegram_sound (abortTelegram_resting .truncated stage fifo) plain
    · exact taken

end

/-! ### The header (R8, R9, R26, R58, R68) -/

theorem held_length {address h0 h1 : Byte} {len : Nat} (held : treatmentOf address h0 h1 len = .held) : len ≤ 64 := by
  unfold treatmentOf at held
  split at held
  · exact nomatch held
  next accepted =>
    cases kind : kindOf h0 with
    | data => rw [kind] at held; exact nomatch held
    | mgmt => simp only [kind, lengthAccepted, decide_eq_false_iff_not, not_not] at accepted; omega
    | assign => simp only [kind, lengthAccepted, decide_eq_false_iff_not, not_not] at accepted; omega
    | foreign => rw [kind] at held; exact nomatch held

/-- The release of a header: to the hold buffer, or in PASSING (R26, R32). -/
theorem releaseHeader_fwd (s : State) (t : Treatment) (cs : List LineChar) (unmarked : Unmarked s)
    (plain : ∀ c ∈ cs, c.wait = false) (noHold : s.fwd.hold = []) :
    (s.releaseHeader t cs).fwd.stage = [] ∧ Unmarked (s.releaseHeader t cs) ∧
    (t = .held → (s.releaseHeader t cs).fwd.state = .holding ∧ (s.releaseHeader t cs).fwd.hold = cs) ∧
    (t ≠ .held → ((s.releaseHeader t cs).fwd.state = .passing ∨ (s.releaseHeader t cs).fwd.state = .cut) ∧
      (s.releaseHeader t cs).fwd.hold = []) := by
  have passing (u : State) (fifo : u.fwd.fifo = s.fwd.fifo) (stage : u.fwd.stage = []) (hold : u.fwd.hold = [])
      (state : u.fwd.state = .passing) (other : t ≠ .held) :
      (u.passChars cs).fwd.stage = [] ∧ Unmarked (u.passChars cs) ∧
      (t = .held → (u.passChars cs).fwd.state = .holding ∧ (u.passChars cs).fwd.hold = cs) ∧
      (t ≠ .held → ((u.passChars cs).fwd.state = .passing ∨ (u.passChars cs).fwd.state = .cut) ∧
        (u.passChars cs).fwd.hold = []) := by
    obtain ⟨fifo', stage', hold', state'⟩ := passChars_fwd u cs
    refine ⟨stage'.trans stage, ?_, fun held => absurd held other, fun _ => ⟨?_, hold'.trans hold⟩⟩
    · rw [Unmarked, fifo']
      exact enterFifo_unmarked u (by rw [Unmarked, fifo]; exact unmarked) plain
    · rw [state']
      split
      · exact .inl state
      · exact .inr rfl
  cases t with
  | held => exact ⟨rfl, unmarked, fun _ => ⟨rfl, rfl⟩, fun other => absurd rfl other⟩
  | data | broadcast | passed | foreign => exact passing _ rfl rfl noHold rfl (by decide)

/-- What a DATA telegram opens: a plan whose fields lie in the payload, its snapshot, and pending writes without bytes. -/
theorem openPlan_data (s seen : State) (group cycle : Byte) (len : Nat) :
    (s.openPlan seen group cycle len).map.plan.isSome = true ∧ (s.openPlan seen group cycle len).map.snapshot.isSome = true ∧
    ∀ w ∈ (s.openPlan seen group cycle len).map.holding, w.offset.toNat + w.width.toNat ≤ len ∧ w.raw = [] := by
  refine ⟨rfl, rfl, fun w listed => ?_⟩
  obtain ⟨p, among, rfl⟩ := List.mem_map.mp listed
  have planned := (List.mem_filter.mp (List.mem_filter.mp among).1).2
  exact ⟨of_decide_eq_true planned, rfl⟩

theorem openData_map (before s : State) (chars : List LineChar) (h0 h1 : Byte) (len : Nat) :
    ∃ seen, (State.openData before s chars h0 h1 len).map = (s.openPlan seen (groupOf h0) h1 len).map ∧
      (State.openData before s chars h0 h1 len).fwd = s.fwd := by
  unfold State.openData
  dsimp only
  split <;> exact ⟨_, rfl, rfl⟩

/-- The place of the parser behind a complete header (R9, R10). -/
def behindHeader (t : Telegram) : Parser := if t.len = 0 then .check t none else .payload t 0

/-- FWD's part of a released header: its characters stand where the treatment puts them. -/
structure Released (r : State) (t : Telegram) : Prop where
  stage : r.fwd.stage = []
  unmarked : Unmarked r
  plain : ∀ c ∈ r.fwd.hold, c.wait = false
  held : t.treatment = .held → r.fwd.state = .holding ∧ r.fwd.hold.length = 3 ∧ t.len ≤ 64
  other : t.treatment ≠ .held → (r.fwd.state = .passing ∨ r.fwd.state = .cut) ∧ r.fwd.hold = []

/-- A released header with what the telegram opens in MAP and LCH. -/
theorem released_sound {u : State} {t : Telegram} (released : Released u t)
    (data : t.treatment = .data → u.map.plan.isSome = true ∧ u.map.snapshot.isSome = true ∧
      ∀ w ∈ u.map.holding, w.offset.toNat + w.width.toNat ≤ t.len ∧ w.raw = [])
    (quiet : t.treatment ≠ .data → NoData u) (parser : u.lrx.parser = behindHeader t) : TelegramSound u := by
  have carried : Carried u t 0 0 := by
    refine ⟨released.stage, released.plain, released.held, released.other, fun isData => ?_, quiet⟩
    obtain ⟨plan, snapshot, writes⟩ := data isData
    refine ⟨plan, snapshot, fun w listed => ?_⟩
    obtain ⟨inside, raw⟩ := writes w listed
    exact ⟨inside, by rw [raw, Nat.zero_sub, Nat.zero_min]; rfl⟩
  unfold behindHeader at parser
  split at parser
  next zero => exact (telegramSound_check parser).mpr ⟨by rw [zero]; exact carried, waits_of_unmarked released.unmarked _⟩
  next positive =>
    exact (telegramSound_payload parser).mpr ⟨Nat.pos_of_ne_zero positive, carried, waits_of_unmarked released.unmarked _⟩

theorem releaseHeader_released {s : State} {cs : List LineChar} {t : Telegram} (unmarked : Unmarked s)
    (plain : ∀ c ∈ cs, c.wait = false) (noHold : s.fwd.hold = []) (three : cs.length = 3)
    (short : t.treatment = .held → t.len ≤ 64) : Released (s.releaseHeader t.treatment cs) t := by
  obtain ⟨stage, free, held, other⟩ := releaseHeader_fwd s t.treatment cs unmarked plain noHold
  refine ⟨stage, free, ?_, fun isHeld => ?_, other⟩
  · by_cases isHeld : t.treatment = .held
    · rw [(held isHeld).2]
      exact plain
    · rw [(other isHeld).2]
      exact fun d listed => nomatch listed
  · obtain ⟨holding, hold⟩ := held isHeld
    exact ⟨holding, by rw [hold, three], short isHeld⟩

theorem completeHeader_sound (s : State) (h0 h1 : Byte) (c : LineChar) (stage : s.fwd.stage.length = 2)
    (plain : ∀ d ∈ s.fwd.stage ++ [c], d.wait = false) (noHold : s.fwd.hold = []) (none : NoData s) (unmarked : Unmarked s) :
    TelegramSound (s.completeHeader h0 h1 c) := by
  have counted : TelegramKept s (if lengthAccepted (kindOf h0) c.data.toNat then s else s.countError .length) ∧
      (if lengthAccepted (kindOf h0) c.data.toNat then s else s.countError .length).fwd = s.fwd := by
    split
    · exact ⟨.refl s, rfl⟩
    · exact ⟨kept_of_lineWork (s.countError_work .length), rfl⟩
  unfold State.completeHeader
  dsimp only
  generalize (if lengthAccepted (kindOf h0) c.data.toNat then s else s.countError .length) = v at counted ⊢
  obtain ⟨kept, fwd⟩ := counted
  rw [fwd]
  generalize decided : (⟨h0, h1, c.data.toNat, treatmentOf s.lrx.address h0 h1 c.data.toNat, []⟩ : Telegram) = t
  have treatment : treatmentOf s.lrx.address h0 h1 c.data.toNat = t.treatment := congrArg Telegram.treatment decided
  have len : c.data.toNat = t.len := congrArg Telegram.len decided
  rw [treatment, len]
  have released : Released (v.releaseHeader t.treatment (s.fwd.stage ++ [c])) t := by
    refine releaseHeader_released (by rw [Unmarked, fwd]; exact unmarked) plain (fwd ▸ noHold) ?_ fun held => ?_
    · rw [List.length_append, stage]
      rfl
    · exact len ▸ held_length (treatment.trans held)
  have work := kept.trans (kept_of_lineWork (v.releaseHeader_work t.treatment (s.fwd.stage ++ [c])))
  generalize v.releaseHeader t.treatment (s.fwd.stage ++ [c]) = r at released work ⊢
  obtain ⟨noStage, free, holdPlain, held, other⟩ := released
  by_cases isData : t.treatment = .data
  · rw [if_pos isData]
    obtain ⟨seen, map, same⟩ := openData_map v r (s.fwd.stage ++ [c]) h0 h1 t.len
    refine released_sound (t := t) ?_ (fun _ => ?_) (fun notData => absurd isData notData) rfl
    · constructor <;> dsimp only [Unmarked] <;> rw [same] <;> assumption
    · dsimp only
      rw [map]
      exact openPlan_data r seen (groupOf h0) h1 t.len
  · rw [if_neg isData]
    obtain ⟨plan, snapshot, holding, captures⟩ := work.noData none
    exact released_sound (t := t) ⟨noStage, free, holdPlain, held, other⟩ (fun data => absurd data isData)
      (fun _ => ⟨plan, snapshot, holding, captures⟩) rfl

theorem takeHeader_sound {s : State} {h0 : Byte} {h1 : Option Byte} (c : LineChar) (parser : s.lrx.parser = .header h0 h1)
    (sound : TelegramSound s) (plain : c.wait = false) : TelegramSound (s.takeHeader h0 h1 c) := by
  obtain ⟨staging, length, unmarked, noHold, none, free⟩ := (telegramSound_header parser).mp sound
  have all : ∀ d ∈ s.fwd.stage ++ [c], d.wait = false := by
    intro d listed
    rcases List.mem_append.mp listed with old | new
    · exact unmarked d old
    · rw [List.mem_singleton.mp new]
      exact plain
  have data : NoData (s.feedCheck c) := ⟨none.plan, none.snapshot, none.holding, none.captures⟩
  cases h1 with
  | none =>
    refine (telegramSound_header (h0 := h0) (h1 := some c.data) rfl).mpr ⟨staging, ?_, all, noHold,
      ⟨none.plan, none.snapshot, none.holding, none.captures⟩, free⟩
    show (s.fwd.stage ++ [c]).length = 2
    rw [List.length_append, length]
    rfl
  | some h1 => exact completeHeader_sound (s.feedCheck c) h0 h1 c length all noHold data ((waitsOnlyIf_false_iff s).mp free)

/-! ### Payload characters (R10, R31, R32, R35, R69) -/

section
variable {s : State}

theorem substitute_fwd (t : Telegram) (pos : Nat) {c : LineChar} (plain : c.wait = false) (unmarked : Unmarked s) :
    Unmarked (s.substitute t pos c) ∧ (s.substitute t pos c).fwd.stage = s.fwd.stage ∧
    (s.substitute t pos c).fwd.hold = s.fwd.hold ∧
    ((s.substitute t pos c).fwd.state = s.fwd.state ∨ (s.substitute t pos c).fwd.state = .cut) := by
  have passed (u : State) (d : LineChar) (fifo : u.fwd.fifo = s.fwd.fifo) (mark : d.wait = false) :
      Unmarked (u.passChars [d]) ∧ (u.passChars [d]).fwd.stage = u.fwd.stage ∧ (u.passChars [d]).fwd.hold = u.fwd.hold ∧
      ((u.passChars [d]).fwd.state = u.fwd.state ∨ (u.passChars [d]).fwd.state = .cut) := by
    obtain ⟨fifo', stage', hold', state'⟩ := passChars_fwd u [d]
    refine ⟨?_, stage', hold', ?_⟩
    · rw [Unmarked, fifo']
      refine enterFifo_unmarked u (by rw [Unmarked, fifo]; exact unmarked) fun e listed => ?_
      rw [List.mem_singleton.mp listed]
      exact mark
    · rw [state']
      split
      · exact .inl rfl
      · exact .inr rfl
  unfold State.substitute
  split
  · exact passed _ _ rfl plain
  · exact passed _ _ rfl plain

/-- A character that goes to the FIFO, to the hold buffer, or nowhere (R31, R32, R35). -/
theorem forwardPayload_fwd {t : Telegram} (pos : Nat) {c : LineChar} (plain : c.wait = false) (unmarked : Unmarked s) :
    Unmarked (s.forwardPayload t pos c) ∧ (s.forwardPayload t pos c).fwd.stage = s.fwd.stage ∧
    (s.fwd.state = .holding → (s.forwardPayload t pos c).fwd.state = .holding ∧
      (s.forwardPayload t pos c).fwd.hold = s.fwd.hold ++ [c]) ∧
    (s.fwd.state = .passing ∨ s.fwd.state = .cut → (s.forwardPayload t pos c).fwd.hold = s.fwd.hold ∧
      ((s.forwardPayload t pos c).fwd.state = .passing ∨ (s.forwardPayload t pos c).fwd.state = .cut)) := by
  unfold State.forwardPayload
  split
  case h_1 passing =>
    obtain ⟨free, stage, hold, state⟩ := substitute_fwd t pos plain unmarked
    rw [passing] at state ⊢
    exact ⟨free, stage, (fun other => nomatch other), fun _ => ⟨hold, state⟩⟩
  case h_2 holding =>
    rw [holding]
    exact ⟨unmarked, rfl, fun _ => ⟨rfl, rfl⟩, fun other => absurd other (by decide)⟩
  case h_3 idle =>
    rw [idle]
    exact ⟨unmarked, rfl, (fun other => nomatch other), fun other => absurd other (by decide)⟩
  case h_4 staging =>
    rw [staging]
    exact ⟨unmarked, rfl, (fun other => nomatch other), fun other => absurd other (by decide)⟩
  case h_5 cut =>
    rw [cut]
    exact ⟨unmarked, rfl, (fun other => nomatch other), fun _ => ⟨rfl, .inr rfl⟩⟩

/-- One more position: a pending write has collected one more byte, when its field covers the position (R69). -/
theorem collect_raw (w : PendingWrite) (pos : Nat) (b : Byte)
    (collected : w.raw.length = min (pos - w.offset.toNat) w.width.toNat) :
    (w.collect pos b).offset = w.offset ∧ (w.collect pos b).width = w.width ∧
    (w.collect pos b).raw.length = min (pos + 1 - w.offset.toNat) w.width.toNat := by
  unfold PendingWrite.collect
  split
  next inside =>
    have ⟨low, high⟩ := of_decide_eq_true inside
    refine ⟨rfl, rfl, ?_⟩
    rw [List.length_append, collected, List.length_singleton]
    omega
  next outside =>
    have apart : ¬(w.offset.toNat ≤ pos ∧ pos < w.offset.toNat + w.width.toNat) := of_decide_eq_false
      ((Bool.not_eq_true _).mp outside)
    refine ⟨rfl, rfl, ?_⟩
    rw [collected]
    omega

/-- The payload character in FWD, with the pending writes as they were. -/
theorem forwardPayload_carried {t : Telegram} {pos : Nat} {c : LineChar} (carried : Carried s t pos 0) (plain : c.wait = false)
    (unmarked : Unmarked s) {u : State} (forwarded : u.fwd = (s.forwardPayload t pos c).fwd)
    (data : t.treatment = .data → u.map.plan.isSome = true ∧ u.map.snapshot.isSome = true ∧
      ∀ w ∈ u.map.holding, w.offset.toNat + w.width.toNat ≤ t.len ∧
        w.raw.length = min (pos + 1 - w.offset.toNat) w.width.toNat)
    (other : t.treatment ≠ .data → NoData u) : Carried u t (pos + 1) 0 := by
  obtain ⟨-, stage, holding, passing⟩ := forwardPayload_fwd (t := t) pos plain unmarked
  rw [← forwarded] at stage holding passing
  refine ⟨stage.trans carried.stage, ?_, fun held => ?_, fun notHeld => ?_, data, other⟩
  · by_cases held : t.treatment = .held
    · rw [(holding (carried.held held).1).2]
      intro d listed
      rcases List.mem_append.mp listed with old | new
      · exact carried.unmarked d old
      · rw [List.mem_singleton.mp new]
        exact plain
    · obtain ⟨state, empty⟩ := carried.passed held
      rw [(passing state).1, empty]
      exact fun d listed => nomatch listed
  · obtain ⟨state, length, short⟩ := carried.held held
    obtain ⟨state', hold⟩ := holding state
    refine ⟨state', ?_, short⟩
    rw [hold, List.length_append, length, List.length_singleton]
    omega
  · obtain ⟨state, empty⟩ := carried.passed notHeld
    obtain ⟨hold, state'⟩ := passing state
    exact ⟨state', hold.trans empty⟩

/-- The agreement does not look at the bytes heard of a broadcast payload, nor at the parser's own place. -/
theorem carried_congr {u : State} {t t' : Telegram} {pos checks : Nat} (carried : Carried s t pos checks)
    (treatment : t'.treatment = t.treatment) (len : t'.len = t.len) (fwd : u.fwd = s.fwd) (map : u.map = s.map)
    (lch : u.lch = s.lch) : Carried u t' pos checks := by
  obtain ⟨stage, unmarked, held, passed, data, other⟩ := carried
  refine ⟨fwd ▸ stage, fwd ▸ unmarked, ?_, ?_, ?_, fun h => ?_⟩
  · rwa [treatment, len, fwd]
  · rwa [treatment, fwd]
  · rwa [treatment, len, map]
  · obtain ⟨plan, snapshot, holding, captures⟩ := other (treatment ▸ h)
    exact ⟨map ▸ plan, map ▸ snapshot, map ▸ holding, lch ▸ captures⟩

theorem takePayload_sound {t : Telegram} {pos : Nat} (c : LineChar) (parser : s.lrx.parser = .payload t pos)
    (sound : TelegramSound s) (plain : c.wait = false) : TelegramSound (s.takePayload t pos c) := by
  obtain ⟨inside, carried, free⟩ := (telegramSound_payload parser).mp sound
  have before : Carried (s.feedCheck c) t pos 0 := carried_congr carried rfl rfl rfl rfl rfl
  have unmarked : Unmarked (s.feedCheck c) := (waitsOnlyIf_false_iff s).mp free
  have line := kept_of_lineWork ((s.feedCheck c).forwardPayload_work t pos c)
  obtain ⟨free', -⟩ := forwardPayload_fwd (t := t) pos plain unmarked
  unfold State.takePayload
  dsimp only
  generalize collected : (if t.treatment = .data then
      (((s.feedCheck c).forwardPayload t pos c).collectByte pos c.data).captureByte pos c.data
    else (s.feedCheck c).forwardPayload t pos c) = u
  have fwd : u.fwd = ((s.feedCheck c).forwardPayload t pos c).fwd := by
    rw [← collected]
    split <;> rfl
  have after : Carried u t (pos + 1) 0 := by
    refine forwardPayload_carried before plain unmarked fwd (fun data => ?_) fun other => ?_
    · rw [if_pos data] at collected
      obtain ⟨plan, snapshot, writes⟩ := before.data data
      rw [← collected]
      refine ⟨line.plan.symm ▸ plan, line.snapshot.symm ▸ snapshot, fun w listed => ?_⟩
      obtain ⟨x, among, rfl⟩ := List.mem_map.mp listed
      rw [line.holding] at among
      obtain ⟨fits, raw⟩ := writes x among
      obtain ⟨offset, width, more⟩ := collect_raw x pos c.data raw
      rw [offset, width]
      exact ⟨fits, more⟩
    · rw [if_neg other] at collected
      rw [← collected]
      exact line.noData (before.other other)
  generalize heard : (if t.treatment = .broadcast then { t with heard := t.heard ++ [c.data] } else t) = t'
  have same : t'.treatment = t.treatment ∧ t'.len = t.len := by
    rw [← heard]
    split <;> exact ⟨rfl, rfl⟩
  obtain ⟨treatment, len⟩ := same
  have waits (p : Parser) (allowed : Prop) : waitsOnlyIf { u with lrx.parser := p } allowed :=
    waits_of_unmarked (by rw [Unmarked, fwd]; exact free') allowed
  rw [len]
  split
  next more =>
    refine (telegramSound_payload rfl).mpr ⟨len.symm ▸ more, carried_congr after treatment len rfl rfl rfl, waits _ _⟩
  next last =>
    refine (telegramSound_check rfl).mpr ⟨?_, waits _ _⟩
    have whole : t'.len = pos + 1 := by omega
    rw [whole]
    exact carried_congr after treatment len rfl rfl rfl

end

end Sys2Proof.Machine.Progress
end

section
/-! PROOFS. The check characters and the end of a telegram, and every other event: each step keeps the blocks agreed on the telegram
in progress (R11, R25, R33 to R39, R59, R71, R154). -/

open Sys2Proof Sys2Proof.Machine

namespace Sys2Proof.Machine.Progress

/-! ### Check character 1 (R11, R28) -/

section
variable {s : State}

/-- With no place left nothing enters, so a character that waits is in the FIFO only in PASSING. -/
theorem passWaiting_waits (c : LineChar) (unmarked : Unmarked s) (passing : s.fwd.state = .passing) :
    waitsOnlyIf (s.passChars [c]) ((s.passChars [c]).fwd.state = .passing) := by
  obtain ⟨fifo, -, -, state⟩ := passChars_fwd s [c]
  cases room : s.fits [c] with
  | true =>
    rw [state, room]
    exact fun _ _ _ => passing
  | false =>
    have full : Config.fifoCapacity - s.level = 0 := by
      have : ¬(s.level + 1 ≤ Config.fifoCapacity) := of_decide_eq_false room
      omega
    refine waits_of_unmarked ?_ _
    rw [Unmarked, fifo, s.enterFifo_fwd, full, List.take_zero, List.append_nil]
    exact unmarked

theorem takeCheck1_sound {t : Telegram} (c : LineChar) (parser : s.lrx.parser = .check t none) (sound : TelegramSound s)
    (plain : c.wait = false) : TelegramSound (s.takeCheck1 t c) := by
  obtain ⟨carried, waits⟩ := (telegramSound_check parser).mp sound
  have unmarked : Unmarked s := unmarked_of_waits waits fun h => Bool.noConfusion h.1
  unfold State.takeCheck1
  dsimp only
  split
  case h_1 passing =>
    generalize before : ({ s with lrx.parser := .check t (some c.data), lrx.gap := some c.time } : State) = u
    have fwd : u.fwd = s.fwd := by rw [← before]
    have notHeld : t.treatment ≠ .held := fun held =>
      absurd (passing.symm.trans (carried.held held).1) (by decide)
    have line := kept_of_lineWork (u.passChars_work [{ c with wait := true }])
    obtain ⟨-, stage, hold, state⟩ := passChars_fwd u [{ c with wait := true }]
    have kept : Carried u t t.len 0 := by
      rw [← before]
      exact carried_congr carried rfl rfl rfl rfl rfl
    have own : (u.passChars [{ c with wait := true }]).lrx.parser = .check t (some c.data) := by
      rw [line.parser, ← before]
    refine (telegramSound_check own).mpr ⟨⟨stage.trans kept.stage, ?_, fun held => absurd held notHeld, fun _ => ⟨?_, ?_⟩, ?_,
      fun other => line.noData (kept.other other)⟩, ?_⟩
    · rw [hold]
      exact kept.unmarked
    · rw [state]
      split
      · exact .inl (fwd ▸ passing)
      · exact .inr rfl
    · rw [hold, fwd]
      exact (carried.passed notHeld).2
    · rw [line.plan, line.snapshot, line.holding]
      exact kept.data
    · intro d listed marked
      exact ⟨rfl, passWaiting_waits _ (by rw [Unmarked, fwd]; exact unmarked) (fwd ▸ passing) d listed marked⟩
  case h_2 holding =>
    have held : t.treatment = .held := Classical.byContradiction fun other => by
      rcases (carried.passed other).1 with h | h <;> exact absurd (holding.symm.trans h) (by decide)
    obtain ⟨state, length, short⟩ := carried.held held
    refine (telegramSound_check (t := t) (first := some c.data) rfl).mpr ⟨⟨carried.stage, fun d listed => ?_, fun _ => ⟨state, ?_, short⟩,
      fun other => absurd held other, carried.data, fun other => ?_⟩, waits_of_unmarked unmarked _⟩
    · rcases List.mem_append.mp listed with old | new
      · exact carried.unmarked d old
      · rw [List.mem_singleton.mp new]
        exact plain
    · show (s.fwd.hold ++ [c]).length = 3 + t.len + 1
      rw [List.length_append, length]
      rfl
    · obtain ⟨plan, snapshot, writes, captures⟩ := carried.other other
      exact ⟨plan, snapshot, writes, captures⟩
  all_goals
    rename_i state
    have notHeld : t.treatment ≠ .held := fun held => absurd (state.symm.trans (carried.held held).1) (by decide)
    refine (telegramSound_check (t := t) (first := some c.data) rfl).mpr ⟨⟨carried.stage, carried.unmarked,
      fun held => absurd held notHeld, fun _ => carried.passed notHeld, carried.data, fun other => ?_⟩,
      waits_of_unmarked unmarked _⟩
    obtain ⟨plan, snapshot, writes, captures⟩ := carried.other other
    exact ⟨plan, snapshot, writes, captures⟩

end

/-! ### The end in FWD (R25, R33, R36 to R38) -/

section
variable {s : State}

theorem FwdClosed.of_fwd {u : State} (same : u.fwd = s.fwd) (closed : FwdClosed s) : FwdClosed u := by
  obtain ⟨state, stage, hold, unmarked⟩ := closed
  exact ⟨by rwa [same], by rwa [same], by rwa [same], by rwa [Unmarked, same]⟩

theorem closed_of_unmarked (unmarked : Unmarked s) : FwdClosed s.closeForward := ⟨rfl, rfl, rfl, unmarked⟩

theorem fixRestartPoint_blocks (s : State) : s.fixRestartPoint.lrx = s.lrx ∧ s.fixRestartPoint.fwd = s.fwd ∧
    s.fixRestartPoint.map = s.map ∧ s.fixRestartPoint.lch = s.lch := by
  unfold State.fixRestartPoint
  dsimp only
  split <;> exact ⟨rfl, rfl, rfl, rfl⟩

theorem fixRestartPoint_kept (s : State) : TelegramKept s s.fixRestartPoint := by
  obtain ⟨lrx, -, map, lch⟩ := fixRestartPoint_blocks s
  exact kept_of_blocks (by rw [lrx]) (by rw [lrx]) map lch

/-- What the end of a telegram in FWD leaves: FWD closed, and the telegram's work in the other blocks as it was. -/
structure ForwardEnded (s u : State) : Prop where
  kept : TelegramKept s u
  closed : FwdClosed u

theorem endPassing_ended (good : Bool) (first : Byte) {c : LineChar} (plain : c.wait = false) :
    ForwardEnded s (s.endPassing good first c) := by
  refine ⟨kept_of_lineWork (s.endPassing_work good first c), ?_⟩
  unfold State.endPassing
  refine closed_of_unmarked (enterFifo_unmarked _ (fun d listed => ?_) fun d listed => ?_)
  · obtain ⟨x, -, rfl⟩ := List.mem_map.mp listed
    cases mark : x.wait with
    | true => rw [if_pos rfl]
    | false => rw [if_neg (by decide)]; exact mark
  · rw [List.mem_singleton.mp listed]
    exact plain

theorem takeOffer_kept (mark offer : Byte) : TelegramKept s (s.takeOffer mark offer) ∧
    (s.takeOffer mark offer).fwd = s.fwd := by
  unfold State.takeOffer
  split <;> exact ⟨kept_of_blocks rfl rfl rfl rfl, rfl⟩

theorem executeTelegram_kept (t : Telegram) (hold : ∀ c ∈ s.fwd.hold, c.wait = false) :
    TelegramKept s (s.executeTelegram t).1 ∧ (s.executeTelegram t).1.fwd.fifo = s.fwd.fifo ∧
    ∀ c ∈ (s.executeTelegram t).2, c.wait = false := by
  unfold State.executeTelegram
  dsimp only
  split
  · obtain ⟨kept, fwd⟩ := takeOffer_kept (s := s) (byteAt (payloadOf s.fwd.hold) 0) (byteAt (payloadOf s.fwd.hold) 1)
    refine ⟨kept, by rw [fwd], ?_⟩
    split
    · exact overwrite_marks _ _ _ (overwrite_marks _ _ _ hold)
    · exact hold
  · have work := executeHeld_rule (payloadOf s.fwd.hold) s
    refine ⟨(kept_of_ruleWork work).trans (kept_of_blocks rfl rfl rfl rfl), ?_, overwrite_marks _ _ _ (overwrite_marks _ _ _ hold)⟩
    show (executeHeld (payloadOf s.fwd.hold) s).state.fwd.fifo = s.fwd.fifo
    rw [work.fwd]

theorem endHeld_ended (t : Telegram) (good : Bool) (unmarked : Unmarked s) (hold : ∀ c ∈ s.fwd.hold, c.wait = false) :
    ForwardEnded s (s.endHeld t good) := by
  have close (u : State) (kept : TelegramKept s u) (free : Unmarked u) : ForwardEnded s u.closeForward :=
    ⟨kept.trans (kept_of_lineWork u.closeForward_work), closed_of_unmarked free⟩
  unfold State.endHeld
  split
  · exact close _ (kept_of_lineWork (s.countError_work .overrun)) unmarked
  · split
    · obtain ⟨kept, fifo, marks⟩ := executeTelegram_kept t hold
      obtain ⟨ended, state, stage, noHold, free⟩ := close ((s.executeTelegram t).1.enterFifo (s.executeTelegram t).2)
        (kept.trans (kept_of_lineWork (State.enterFifo_work _ _)))
        (enterFifo_unmarked _ (by rw [Unmarked, fifo]; exact unmarked) marks)
      obtain ⟨-, fwd, -, -⟩ :=
        fixRestartPoint_blocks ((s.executeTelegram t).1.enterFifo (s.executeTelegram t).2).closeForward
      exact ⟨ended.trans (fixRestartPoint_kept _), .of_fwd fwd ⟨state, stage, noHold, free⟩⟩
    · exact close _ (kept_of_lineWork (s.enterFifo_work _)) (enterFifo_unmarked s unmarked hold)

theorem endForward_ended (t : Telegram) (good : Bool) (first : Byte) {c : LineChar} (plain : c.wait = false)
    (hold : ∀ d ∈ s.fwd.hold, d.wait = false) (fifo : s.fwd.state ≠ .passing → Unmarked s) :
    ForwardEnded s (s.endForward t good first c) := by
  have closes (other : s.fwd.state ≠ .passing) : ForwardEnded s s.closeForward :=
    ⟨kept_of_lineWork s.closeForward_work, closed_of_unmarked (fifo other)⟩
  unfold State.endForward
  split
  case h_1 => exact endPassing_ended good first plain
  case h_2 holding =>
    have ended := endHeld_ended (s := { s with fwd.hold := s.fwd.hold ++ [c] }) t good (fifo (by rw [holding]; decide))
      fun d listed => by
        rcases List.mem_append.mp listed with old | new
        · exact hold d old
        · rw [List.mem_singleton.mp new]
          exact plain
    obtain ⟨⟨parser, gap, plan, snapshot, holding, captures⟩, closed⟩ := ended
    exact ⟨⟨parser, gap, plan, snapshot, holding, captures⟩, closed⟩
  case h_3 idle => exact closes (by rw [idle]; decide)
  case h_4 staging => exact closes (by rw [staging]; decide)
  case h_5 cut => exact closes (by rw [cut]; decide)

end

/-! ### The end at the blocks that hear it (R39, R60, R70, R71, R159) -/

section
variable {s : State}

theorem dropped_noData {u : State} (plan : u.map.plan = none) (snapshot : u.map.snapshot = none) (holding : u.map.holding = []) :
    NoData u.dropCaptures := ⟨plan, snapshot, holding, fun k => u.dropCaptures_capture k⟩

/-- LCH's work at the good end leaves LRX, FWD and the plan, and drops the captures. -/
theorem loadsAtEnd_frame (s : State) : s.loadsAtEnd.lrx = s.lrx ∧ s.loadsAtEnd.fwd = s.fwd ∧
    s.loadsAtEnd.map.plan = s.map.plan ∧ s.loadsAtEnd.map.snapshot = s.map.snapshot ∧
    s.loadsAtEnd.map.holding = s.map.holding ∧ ∀ k : Fin 2, s.loadsAtEnd.lch[k].capture = none := by
  obtain ⟨-, map, ⟨lrx, fwd, -⟩, -⟩ := s.loadsAtEnd_work
  refine ⟨lrx, fwd, by rw [map], by rw [map], by rw [map], fun k => ?_⟩
  unfold State.loadsAtEnd
  dsimp only
  exact State.dropCaptures_capture _ k

/-- Whatever its end, a DATA telegram leaves nothing open (R60, R71, R154). -/
theorem endData_resting (cycle : Byte) (good : Bool) (closed : FwdClosed s) (gap : s.lrx.gap = none) :
    Resting (s.endData cycle good) ∧ (s.endData cycle good).lrx.parser = s.lrx.parser := by
  unfold State.endData
  split
  · obtain ⟨u, ⟨-, ⟨lrx, fwd, -⟩, -⟩, processed⟩ := s.processHolding_work cycle
    obtain ⟨lrx', fwd', plan, snapshot, holding, captures⟩ := loadsAtEnd_frame (s.processHolding cycle)
    rw [processed] at lrx' fwd' plan snapshot holding captures ⊢
    refine ⟨⟨.of_fwd (fwd'.trans fwd) closed, ?_, ⟨plan, snapshot, holding, captures⟩⟩, ?_⟩
    · rw [lrx', lrx]
      exact gap
    · rw [lrx', lrx]
  · obtain ⟨state, stage, hold, unmarked⟩ := closed
    exact ⟨⟨⟨state, stage, hold, unmarked⟩, gap, dropped_noData rfl rfl rfl⟩, rfl⟩

theorem executeBroadcast_kept (payload : List Byte) : TelegramKept s (executeBroadcast payload s) ∧
    (executeBroadcast payload s).fwd.state = s.fwd.state ∧ (executeBroadcast payload s).fwd.stage = s.fwd.stage ∧
    (executeBroadcast payload s).fwd.hold = s.fwd.hold ∧ (executeBroadcast payload s).fwd.fifo = s.fwd.fifo := by
  have work := executeBroadcast_rule payload s
  exact ⟨kept_of_ruleWork work, by rw [work.fwd], by rw [work.fwd], by rw [work.fwd], by rw [work.fwd]⟩

theorem takeCheck2_sound {t : Telegram} {first : Byte} (c : LineChar) (parser : s.lrx.parser = .check t (some first))
    (sound : TelegramSound s) (plain : c.wait = false) : TelegramSound (s.takeCheck2 t first c) := by
  obtain ⟨carried, waits⟩ := (telegramSound_check parser).mp sound
  have fifo : s.fwd.state ≠ .passing → Unmarked s := fun other => unmarked_of_waits waits fun h => other h.2
  unfold State.takeCheck2 State.endTelegram
  dsimp only
  generalize (decide (first = highByte s.lrx.acc) && decide (c.data = lowByte s.lrx.acc)) = good
  /- after the check is decided nothing but the parser, the gap timer and the counters differs -/
  generalize checked : (if good = true then ({ s with lrx.parser := .idle, lrx.gap := none } : State)
    else State.countError { s with lrx.parser := .idle, lrx.gap := none } .crc) = u
  have line : LineWork { s with lrx.parser := .idle, lrx.gap := none } u ∧ u.fwd = s.fwd := by
    rw [← checked]
    split
    · exact ⟨.refl _, rfl⟩
    · exact ⟨State.countError_work _ .crc, rfl⟩
  obtain ⟨work, fwd⟩ := line
  obtain ⟨idle, noGap, plan, snapshot, holding, captures⟩ := kept_of_lineWork work
  have quiet (other : t.treatment ≠ .data) : NoData u :=
    have none := carried.other other
    ⟨plan.trans none.plan, snapshot.trans none.snapshot, holding.trans none.holding,
      fun k => (captures k).trans (none.captures k)⟩
  obtain ⟨kept, closed⟩ := endForward_ended (s := u) t good first plain (fwd ▸ carried.unmarked) (fun other => by
    rw [Unmarked, fwd]
    exact fifo (fwd ▸ other))
  generalize u.endForward t good first c = v at kept closed ⊢
  have gap : v.lrx.gap = none := kept.gap (noGap rfl)
  have resting (other : t.treatment ≠ .data) : TelegramSound v :=
    (telegramSound_resting (.inl (kept.parser.trans idle))).mpr ⟨closed, gap, kept.noData (quiet other)⟩
  split
  case h_1 data =>
    obtain ⟨rests, same⟩ := endData_resting t.h1 good closed gap
    exact (telegramSound_resting (.inl (same.trans (kept.parser.trans idle)))).mpr rests
  case h_2 broadcast =>
    split
    · obtain ⟨executed, state, stage, hold, same⟩ := executeBroadcast_kept (s := v) t.heard
      obtain ⟨-, fixed, -, -⟩ := fixRestartPoint_blocks (executeBroadcast t.heard v)
      refine telegramSound_of_kept (executed.trans (fixRestartPoint_kept _)) ?_ ?_ ?_ (fun d listed => ?_)
        (resting (by rw [broadcast]; decide))
      · rw [fixed, state]
      · rw [fixed, stage]
      · rw [fixed, hold]
      · rwa [fixed, same] at listed
    · exact resting (by rw [broadcast]; decide)
  case h_3 held => exact resting (by rw [held]; decide)
  case h_4 passed => exact resting (by rw [passed]; decide)
  case h_5 foreign => exact resting (by rw [foreign]; decide)

/-! ### The parser (R7 to R16) -/

/-- A counted error leaves everything but the counters and the flags. -/
theorem countError_resting {e : LineError} (resting : Resting s) : Resting (s.countError e) := by
  obtain ⟨⟨state, stage, hold, unmarked⟩, gap, ⟨plan, snapshot, holding, captures⟩⟩ := resting
  exact ⟨⟨state, stage, hold, unmarked⟩, gap, ⟨plan, snapshot, holding, captures⟩⟩

theorem parse_sound {c : LineChar} (good : Bool) (plain : c.wait = false) (sound : TelegramSound s) :
    TelegramSound (s.parse c good) := by
  unfold State.parse
  split
  case h_1 parser =>
    have resting := (telegramSound_resting (.inl parser)).mp sound
    split
    · split
      · exact beginTelegram_sound resting plain
      · obtain ⟨⟨state, stage, hold, unmarked⟩, gap, ⟨plan, snapshot, holding, captures⟩⟩ := resting
        exact (telegramSound_resting (.inr rfl)).mpr
          ⟨⟨state, stage, hold, unmarked⟩, gap, ⟨plan, snapshot, holding, captures⟩⟩
    · split
      · obtain ⟨⟨state, stage, hold, unmarked⟩, gap, data⟩ := resting
        have kept := kept_of_lineWork (s.enterFifo_work [c])
        refine (telegramSound_resting (.inl (kept.parser.trans parser))).mpr ⟨⟨?_, ?_, ?_, ?_⟩, kept.gap gap, kept.noData data⟩
        · rw [s.enterFifo_fwd]; exact state
        · rw [s.enterFifo_fwd]; exact stage
        · rw [s.enterFifo_fwd]; exact hold
        · refine enterFifo_unmarked s unmarked fun d listed => ?_
          rw [List.mem_singleton.mp listed]
          exact plain
      · exact sound
  case h_2 parser =>
    have resting := (telegramSound_resting (.inr parser)).mp sound
    split
    · split
      · exact beginTelegram_sound resting plain
      · exact (telegramSound_resting (s := s.countError .framing) (.inr parser)).mpr (countError_resting resting)
    · exact sound
  case h_3 h0 h1 parser => exact inside_sound sound plain (takeHeader_sound c parser sound plain)
  case h_4 t pos parser => exact inside_sound sound plain (takePayload_sound c parser sound plain)
  case h_5 t parser => exact inside_sound sound plain (takeCheck1_sound c parser sound plain)
  case h_6 t first parser => exact inside_sound sound plain (takeCheck2_sound c parser sound plain)

end

/-! ### Every command -/

/-- The telegram in progress stands, and FWD's part of it but for characters leaving the FIFO. -/
structure ProgressKept (s u : State) : Prop where
  kept : TelegramKept s u
  state : u.fwd.state = s.fwd.state
  stage : u.fwd.stage = s.fwd.stage
  hold : u.fwd.hold = s.fwd.hold
  fifo : ∀ c ∈ u.fwd.fifo, c ∈ s.fwd.fifo

section
variable {s u v : State}

theorem ProgressKept.sound (progress : ProgressKept s u) (sound : TelegramSound s) : TelegramSound u :=
  telegramSound_of_kept progress.kept progress.state progress.stage progress.hold progress.fifo sound

theorem ProgressKept.of_blocks (parser : u.lrx.parser = s.lrx.parser) (gap : u.lrx.gap = s.lrx.gap) (fwd : u.fwd = s.fwd)
    (map : u.map = s.map) (lch : u.lch = s.lch) : ProgressKept s u :=
  ⟨kept_of_blocks parser gap map lch, by rw [fwd], by rw [fwd], by rw [fwd], by rw [fwd]; exact fun _ => id⟩

theorem ProgressKept.refl (s : State) : ProgressKept s s := .of_blocks rfl rfl rfl rfl rfl

theorem ProgressKept.trans (first : ProgressKept s u) (later : ProgressKept u v) : ProgressKept s v :=
  ⟨first.kept.trans later.kept, later.state.trans first.state, later.stage.trans first.stage,
    later.hold.trans first.hold, fun c listed => first.fifo c (later.fifo c listed)⟩

theorem ProgressKept.of_ruleWork (work : RuleWork s u) : ProgressKept s u :=
  ⟨kept_of_ruleWork work, by rw [work.fwd], by rw [work.fwd], by rw [work.fwd], by rw [work.fwd]; exact fun _ => id⟩

/-- Work under a condition, and none without it. -/
theorem ProgressKept.guarded {p : Prop} [Decidable p] (work : ProgressKept s u) : ProgressKept s (if p then u else s) := by
  split
  · exact work
  · exact .refl s

theorem fixRestartPoint_progress : ProgressKept s s.fixRestartPoint := by
  obtain ⟨lrx, fwd, map, lch⟩ := fixRestartPoint_blocks s
  exact .of_blocks (by rw [lrx]) (by rw [lrx]) fwd map lch

theorem carried_progress {rule : Rule} (works : ∀ o, RuleWork s (rule o s).state) (via : Via) (permitted : Bool) :
    ProgressKept s (carried via permitted rule s) := by
  cases via with
  | held => exact (ProgressKept.of_ruleWork (works .command)).trans (.of_blocks rfl rfl rfl rfl rfl)
  | broadcast => exact .guarded (.of_ruleWork (works .broadcast))

theorem takeOffer_progress (mark offer : Byte) : ProgressKept s (s.takeOffer mark offer) := by
  obtain ⟨kept, fwd⟩ := takeOffer_kept (s := s) mark offer
  exact ⟨kept, by rw [fwd], by rw [fwd], by rw [fwd], by rw [fwd]; exact fun _ => id⟩

/-- A character that TXO begins to send leaves the FIFO (R27). -/
theorem beginSending_progress (time : Nat) : ProgressKept s (s.beginSending time) := by
  rcases s.beginSending_cases time with same | ⟨c, rest, -, fifo, -, -, begun⟩
  · rw [same]
    exact .refl s
  · rw [begun]
    refine ⟨kept_of_blocks rfl rfl rfl rfl, rfl, rfl, rfl, fun d listed => ?_⟩
    rw [fifo]
    exact List.mem_cons_of_mem c listed

theorem tick_progress (t : Fin 2) : ProgressKept s (s.tick t) := by
  refine .guarded (ProgressKept.trans (u := s.countTick t) ?_ (.of_blocks rfl rfl rfl rfl rfl))
  rcases s.countTick_cases t with ⟨-, counted⟩ | ⟨-, boundary⟩
  · rw [counted]
    exact .of_blocks rfl rfl rfl rfl rfl
  · rw [boundary]
    exact .of_ruleWork (s.boundary_rule t)

theorem sampleTrip_progress (v : Bool) : ProgressKept s (s.sampleTrip v) := by
  rcases s.sampleTrip_cases v with ⟨-, -, sampled⟩ | ⟨-, sampled⟩
  · rw [sampled]
    exact .of_blocks rfl rfl rfl rfl rfl
  · rw [sampled]
    exact .of_blocks rfl rfl rfl rfl rfl

theorem foldl_sampleInput_progress (levels : Byte) (l : List (Fin 8)) (s : State) :
    ProgressKept s (l.foldl (fun u k => u.sampleInput k (levels.getLsbD k.val)) s) := by
  induction l generalizing s with
  | nil => exact .refl s
  | cons k l ih =>
    refine ProgressKept.trans ?_ (ih (s.sampleInput k (levels.getLsbD k.val)))
    exact .of_blocks rfl rfl rfl rfl rfl

end

/-- A sound state stays sound while RSTn is high. -/
def SoundKept (s t : State) : Prop := (s.released → TelegramSound s) → t.released → TelegramSound t

section
variable {s t : State}

theorem event_sound {work : State → State} (ran : event work s = .next t)
    (works : s.released → TelegramSound s → TelegramSound (work s)) : SoundKept s t := by
  intro sound high
  cases level : s.pins.rstn with
  | false =>
    rw [event_low work s level] at ran
    cases ran
    exact sound high
  | true =>
    rw [event_high work s level] at ran
    cases ran
    refine ProgressKept.sound ?_ (works level (sound level))
    exact .of_blocks rfl rfl rfl rfl rfl

theorem event_progress {work : State → State} (ran : event work s = .next t) (progress : ProgressKept s (work s)) :
    SoundKept s t := event_sound ran fun _ => progress.sound

theorem row_sound {rule : Rule} {via : Via} {permitted : Bool} (ran : event (carried via permitted rule) s = .next t)
    (works : ∀ o, RuleWork s (rule o s).state) : SoundKept s t :=
  event_progress ran (carried_progress works via permitted)

/-- A management row whose rule answers the state as it was. -/
theorem row_of_reading_sound {rule : Rule} {via : Via} {permitted : Bool}
    (ran : event (carried via permitted rule) s = .next t) (reads : ∀ o, (rule o s).state = s) : SoundKept s t :=
  row_sound ran fun o => (reads o).symm ▸ .refl s

/-- Every block at its reset values: no telegram. -/
theorem reset_sound {u : State} (lrx : u.lrx.parser = .idle ∧ u.lrx.gap = none) (fwd : u.fwd = .reset) (map : u.map = .reset)
    (lch : u.lch = State.reset.lch) : TelegramSound u := by
  obtain ⟨parser, gap⟩ := lrx
  refine (telegramSound_resting (.inl parser)).mpr ⟨⟨by rw [fwd]; rfl, by rw [fwd]; rfl, by rw [fwd]; rfl, ?_⟩, gap,
    ⟨by rw [map]; rfl, by rw [map]; rfl, by rw [map]; rfl, fun k => ?_⟩⟩
  · rw [Unmarked, fwd]
    exact fun c listed => nomatch listed
  · rw [lch, show State.reset.lch[k] = .reset from Vector.getElem_replicate _]
    rfl

theorem exec_sound {c : Instr} (ran : exec c s = .next t) : SoundKept s t := by
  cases c with
  | rstnFall =>
    cases ran
    exact fun _ high => nomatch high
  | rstnRelease =>
    cases ran
    exact fun _ _ => reset_sound ⟨rfl, rfl⟩ rfl rfl rfl
  | restartTakesEffect =>
    refine event_sound ran fun _ sound => ?_
    split
    · exact reset_sound ⟨rfl, rfl⟩ rfl rfl rfl
    · exact sound
  | characterReceived data marker stop time =>
    refine event_sound ran fun _ sound => ?_
    dsimp only
    split
    · refine parse_sound stop rfl (ProgressKept.sound ?_ sound)
      exact .of_blocks rfl rfl rfl rfl rfl
    · exact sound
  | gapTimeout time =>
    refine event_sound ran fun _ sound => ?_
    split
    · obtain ⟨stage, fifo⟩ := abortable sound
      exact abortTelegram_sound .gap stage fifo
    · exact sound
  | transmitCharacter time =>
    dsimp only [exec, execTransmitCharacter] at ran
    exact event_progress ran (beginSending_progress time)
  | characterSent time =>
    dsimp only [exec, execCharacterSent] at ran
    refine event_progress ran ?_
    split
    · refine .guarded (ProgressKept.trans ?_ (beginSending_progress time))
      exact ⟨kept_of_blocks rfl rfl rfl rfl, rfl, rfl, rfl, fun _ => id⟩
    · exact .refl s
  | lineIdle =>
    dsimp only [exec, execLineIdle] at ran
    exact event_progress ran (.guarded (.of_blocks rfl rfl rfl rfl rfl))
  | startBitEdge =>
    dsimp only [exec, execStartBitEdge] at ran
    exact event_progress ran (.guarded (.of_blocks rfl rfl rfl rfl rfl))
  | startBitSample level =>
    dsimp only [exec, execStartBitSample] at ran
    refine event_progress ran (.guarded ?_)
    split
    · exact .of_blocks rfl rfl rfl rfl rfl
    · exact ⟨⟨rfl, fun _ => rfl, rfl, rfl, rfl, fun _ => rfl⟩, rfl, rfl, rfl, fun _ => id⟩
  | assign mark offer => exact event_progress ran (.guarded (takeOffer_progress mark offer))
  | timebaseTick b => exact event_progress ran (tick_progress b)
  | periodBoundary | dutyMatch | deadTimeExpiry => exact event_progress ran (.guarded (tick_progress _))
  | sampleInstant tripn inputs =>
    dsimp only [exec, execSampleInstant] at ran
    exact event_progress ran ((sampleTrip_progress tripn).trans (foldl_sampleInput_progress inputs _ _))
  | filteredLevelChange line =>
    cases line with
    | trip => exact event_progress ran (.guarded (sampleTrip_progress _))
    | input k => exact event_progress ran (.guarded (.of_blocks rfl rfl rfl rfl rfl))
  | identify | readStatus | readCounters => exact row_of_reading_sound ran fun _ => rfl
  | readParameter => exact row_of_reading_sound ran fun o => readParameter_rule _ o s
  | readMapEntry => exact row_of_reading_sound ran fun o => readMapEntry_rule _ _ o s
  | readConversionRecord => exact row_of_reading_sound ran fun o => readConversionRecord_rule _ _ o s
  | clearCounters => exact row_sound ran fun o => commandRule_rule 0x04 [] o s
  | releaseAddress => exact row_sound ran fun o => commandRule_rule 0x50 [] o s
  | acknowledgeAttention => exact row_sound ran fun o => acknowledgeAttention_rule _ o s
  | writeParameter => exact row_sound ran fun o => writeParameter_rule _ _ o s
  | writeAttentionMask _ v => exact row_sound ran fun o => Param.write_rule .attentionMask v o s
  | writeTripFilter _ v => exact row_sound ran fun o => Param.write_rule .tripFilter v o s
  | writeInputFilter _ k v => exact row_sound ran fun o => Param.write_rule (.inputFilter k) v o s
  | writePeriod _ b v => exact row_sound ran fun o => Param.write_rule (.period b) v o s
  | writePrescaler _ b v => exact row_sound ran fun o => Param.write_rule (.prescaler b) v o s
  | writeDeadTime _ n v => exact row_sound ran fun o => Param.write_rule (.deadTime n) v o s
  | writePolarity _ n v => exact row_sound ran fun o => Param.write_rule (.polarity n) v o s
  | writeSafeLevels _ n v => exact row_sound ran fun o => Param.write_rule (.safeLevels n) v o s
  | writeGate _ n v => exact row_sound ran fun o => Param.write_rule (.gate n) v o s
  | writeTripEnable _ n v => exact row_sound ran fun o => Param.write_rule (.tripEnable n) v o s
  | writeRingMode _ n v => exact row_sound ran fun o => Param.write_rule (.ringMode n) v o s
  | writeRingDepth _ n v => exact row_sound ran fun o => Param.write_rule (.ringDepth n) v o s
  | writeExceptionMask _ n v => exact row_sound ran fun o => Param.write_rule (.exceptionMask n) v o s
  | writeMapEntry => exact row_sound ran fun o => writeMapEntry_rule _ _ o s
  | writeConversionRecord => exact row_sound ran fun o => writeConversionRecord_rule _ _ o s
  | commit => exact row_sound ran fun o => commit_rule o s
  | discardStaged => exact row_sound ran fun o => discardStaged_rule o s
  | enable => exact row_sound ran fun o => (enableChannels_work _ o s).toRule
  | disable => exact row_sound ran fun o => (disableChannels_work _ o s).toRule
  | clearFault => exact row_sound ran fun o => (clearFaultChannels_work _ o s).toRule
  | clearFlags => exact row_sound ran fun o => (clearFlagsChannels_work _ o s).toRule
  | start => exact row_sound ran fun o => startTimebases_rule _ o s
  | stop => exact row_sound ran fun o => stopTimebases_rule _ o s
  | pushSetpoint => exact row_sound ran fun o => pushSetpoint_rule _ _ _ _ o s
  | force => exact row_sound ran fun o => forceTrip_rule o s
  | clear => exact row_sound ran fun o => clearTrip_rule o s
  | loadSetup => exact row_sound ran fun o => loadSetup_rule _ _ o s
  | loadStart => exact row_sound ran fun o => loadStart_rule _ o s
  | loadCancel => exact row_sound ran fun o => loadCancel_rule _ o s
  | loadStatus => exact row_sound ran fun o => loadStatus_rule _ o s
  | restart via =>
    dsimp only [exec, execRestart] at ran
    exact event_progress ran ((carried_progress (fun o => restart_rule o s) via true).trans fixRestartPoint_progress)

end

end Sys2Proof.Machine.Progress

open Sys2Proof.Machine.Progress

/-- Settles O9: a character by the parser's place, an abort by what it leaves, a reset by its values; every other event leaves the
telegram in progress and removes characters from the FIFO at most. -/
theorem stepKeepsTheTelegramSound : Obligations.StepKeepsTheTelegramSound := by
  intro s t sound ran high
  unfold step at ran
  split at ran
  · cases ran
    exact sound high
  · refine exec_sound ran (fun released => ?_) high
    refine ProgressKept.sound ?_ (sound released)
    exact .of_blocks rfl rfl rfl rfl rfl
end

section
/-! PROOFS. The two resets (R185 to R188), the line error counters (R19, R20, R179) and the station address (R21 to R23, R183). -/

open Sys2Proof Sys2Proof.Machine

namespace Sys2Proof.Machine.Station

/-! ### Resets -/

theorem restarted_eq (s : State) : s.restarted = s.atResetValues s.lrx.rate s.lrx.address := rfl

/-- A restart leaves every age at 0, so its edges have nothing to restart. -/
theorem settleEdges_restarted (s : State) : settleEdges s s.restarted = s.restarted := by
  refine Timebases.settleEdges_of_restarted s _ fun n => .inr ?_
  rw [show s.restarted.out[n] = .reset from Vector.getElem_replicate _]
  rfl

/-! ### Counters -/

/-- The counters of READ COUNTERS, two bytes each (R179, R194). -/
def counterBytes (s : State) : List Byte := s.lrx.counters.toList.flatMap (leBytes 2)

theorem counterBytes_length (s : State) : (counterBytes s).length = 12 := by
  rw [counterBytes, Status.flatMap_length (leBytes 2) (leBytes_length 2), Vector.length_toList]

theorem counterBytes_piece (s : State) (i : Fin 6) : ((counterBytes s).drop (2 * i.val)).take 2 =
    [BitVec.ofNat 8 s.lrx.counters[i], BitVec.ofNat 8 (s.lrx.counters[i] / 256)] := by
  have inside : i.val < s.lrx.counters.toList.length := by rw [Vector.length_toList]; exact i.isLt
  rw [counterBytes, Status.flatMap_piece (leBytes 2) (leBytes_length 2) _ i.val inside, Vector.getElem_toList]
  rfl

/-! ### The station address -/

section
variable {s : State}

theorem exec_assign_of_unassigned (high : s.released) (unassigned : s.lrx.address = 0) (mark offer : Byte) :
    exec (.assign mark offer) s = .next (s.takeOffer mark offer) := by
  refine Forwarding.event_of_work _ s _ high (if_pos unassigned) ?_
  unfold State.takeOffer
  split <;> exact ⟨rfl, rfl, rfl, rfl⟩

theorem exec_assign_of_assigned (assigned : s.lrx.address ≠ 0) (mark offer : Byte) : exec (.assign mark offer) s = .next s :=
  Forwarding.event_of_self _ s (if_neg assigned)

end

end Sys2Proof.Machine.Station

open Sys2Proof.Machine.Station

/-- Settles O13: the reset tables are the model's reset values; a restart leaves no age to settle, and elsewhere RESTART_TAKES_EFFECT
does no work. -/
theorem bothResetsGiveTheResetValues : Obligations.BothResetsGiveTheResetValues := by
  refine ⟨fun straps s => rfl, fun s high point => ?_, fun s elsewhere => Forwarding.event_of_self _ s (if_neg elsewhere)⟩
  rw [← restarted_eq, ← settleEdges_restarted]
  refine (event_high _ s high).trans ?_
  rw [if_pos point]

/-- Settles O30: counting is one update, and the reply is made of pieces of two bytes. -/
theorem countersAreCountedReadAndCleared : Obligations.CountersAreCountedReadAndCleared := by
  refine ⟨fun s e => rfl, rfl, fun s high => ⟨⟨counterBytes s, counterBytes_length s, ?_, counterBytes_piece s⟩, ?_⟩⟩
  · exact Forwarding.event_of_work _ s _ high rfl ⟨rfl, rfl, rfl, rfl⟩
  · exact Forwarding.event_of_work _ s _ high rfl ⟨rfl, rfl, rfl, rfl⟩

/-- Settles O35: an offer is tested while UNASSIGNED alone; RELEASE ADDRESS makes no edge. -/
theorem addressIsTakenAndReleased : Obligations.AddressIsTakenAndReleased := by
  intro s high
  refine ⟨fun mark offer unassigned untaken low small => ?_, fun mark offer unassigned bad => ?_,
    fun mark offer assigned => exec_assign_of_assigned assigned mark offer, ?_, ?_⟩
  · rw [exec_assign_of_unassigned high unassigned, State.takeOffer, if_pos]
    exact decide_eq_true ⟨unassigned, untaken, low, small⟩
  · rw [exec_assign_of_unassigned high unassigned, State.takeOffer, if_neg]
    rw [State.offerTaken, decide_eq_true_iff]
    rintro ⟨-, untaken, low, small⟩
    rcases bad with taken | zero | large
    · exact taken untaken
    · omega
    · omega
  · exact Forwarding.event_of_work _ s _ high rfl ⟨rfl, rfl, rfl, rfl⟩
  · exact Forwarding.event_of_work _ s _ high rfl ⟨rfl, rfl, rfl, rfl⟩
end

section
/-! PROOFS. The tables by management: staged writes, reads of a selected bank, COMMIT and DISCARD STAGED (R48 to R56). -/

open Sys2Proof Sys2Proof.Machine

namespace Sys2Proof.Machine.Banks

/-! ### Held banks (R51) -/

section
variable {s : State}

theorem holdsTarget_iff (l : LoadChannel) (target : LoadTarget) : l.holdsTarget target = true ↔
    (l.state = .active ∨ l.state = .waiting) ∧ ∃ d, l.descriptor = some d ∧ d.target = target := by
  rw [LoadChannel.holdsTarget, Bool.and_eq_true, Loads.holds_iff, beq_iff_eq, Option.map_eq_some_iff]

theorem targetHeld_iff (target : LoadTarget) : s.targetHeld target = true ↔
    ∃ (k : Fin 2) (d : Descriptor), (s.lch[k].state = .active ∨ s.lch[k].state = .waiting) ∧
      s.lch[k].descriptor = some d ∧ d.target = target := by
  rw [State.targetHeld, Bool.or_eq_true, holdsTarget_iff, holdsTarget_iff]
  constructor
  · rintro (⟨held, d, descriptor, own⟩ | ⟨held, d, descriptor, own⟩)
    · exact ⟨0, d, held, descriptor, own⟩
    · exact ⟨1, d, held, descriptor, own⟩
  · rintro ⟨k, d, held, descriptor, own⟩
    rcases Loads.firstOrSecond k with rfl | rfl
    · exact .inl ⟨held, d, descriptor, own⟩
    · exact .inr ⟨held, d, descriptor, own⟩

theorem anyHeld_iff : s.anyHeld = true ↔ ∃ k : Fin 2, s.lch[k].state = .active ∨ s.lch[k].state = .waiting := by
  rw [State.anyHeld, Bool.or_eq_true, Loads.holds_iff, Loads.holds_iff]
  constructor
  · rintro (held | held)
    · exact ⟨0, held⟩
    · exact ⟨1, held⟩
  · rintro ⟨k, held⟩
    rcases Loads.firstOrSecond k with rfl | rfl
    · exact .inl held
    · exact .inr held

/-! ### Rows that change MAP alone -/

theorem event_held_setMap (p : Bool) (rule : Rule) (high : s.released) {m : MapUnit} {reply : List Byte}
    (done : rule .command s = doneWith { s with map := m } reply) :
    event (carried .held p rule) s = .next (State.answered { s with map := m } .done reply) := by
  refine Forwarding.event_of_work _ s _ high ?_ ⟨rfl, rfl, rfl, rfl⟩
  rw [carried_held, done]
  rfl

theorem event_held_read (p : Bool) (rule : Rule) (high : s.released) {reply : List Byte}
    (done : rule .command s = doneWith s reply) : event (carried .held p rule) s = .next (s.answered .done reply) :=
  event_held_setMap (m := s.map) p rule high done

end

/-! ### Reads (R49) -/

section
variable (m : MapUnit)

theorem selectedMap_of_large {selector : Byte} (large : 2 ≤ selector.toNat) : m.selectedMap selector = none := by
  unfold MapUnit.selectedMap
  split
  · omega
  · omega
  · rfl

theorem selectedConv_of_large {selector : Byte} (large : 2 ≤ selector.toNat) : m.selectedConv selector = none := by
  unfold MapUnit.selectedConv
  split
  · omega
  · omega
  · rfl

end

section
variable {s : State} {index selector : Byte} (o : Origin)

theorem readMapEntry_of_bank {bank : Vector MapEntry 64} (selected : s.map.selectedMap selector = some bank) {i : Fin 64}
    (number : index.toNat = i.val) : readMapEntry index selector o s = doneWith s bank[i].bytes := by
  simp only [readMapEntry, selected, Option.bind_some, number, Fin.getElem_fin, Vector.getElem?_eq_getElem i.isLt]

theorem readConversionRecord_of_bank {bank : Vector ConvRecord 16} (selected : s.map.selectedConv selector = some bank)
    {i : Fin 16} (number : index.toNat = i.val) :
    readConversionRecord index selector o s = doneWith s bank[i].bytes := by
  simp only [readConversionRecord, selected, Option.bind_some, number, Fin.getElem_fin, Vector.getElem?_eq_getElem i.isLt]

theorem readMapEntry_of_large (large : 64 ≤ index.toNat ∨ 2 ≤ selector.toNat) :
    readMapEntry index selector o s = refuse .badArgument s := by
  have missing : (s.map.selectedMap selector).bind (·[index.toNat]?) = none := by
    rcases large with large | large
    · cases s.map.selectedMap selector with
      | none => rfl
      | some bank => exact Vector.getElem?_eq_none large
    · rw [selectedMap_of_large _ large]
      rfl
  simp only [readMapEntry, missing]

theorem readConversionRecord_of_large (large : 16 ≤ index.toNat ∨ 2 ≤ selector.toNat) :
    readConversionRecord index selector o s = refuse .badArgument s := by
  have missing : (s.map.selectedConv selector).bind (·[index.toNat]?) = none := by
    rcases large with large | large
    · cases s.map.selectedConv selector with
      | none => rfl
      | some bank => exact Vector.getElem?_eq_none large
    · rw [selectedConv_of_large _ large]
      rfl
  simp only [readConversionRecord, missing]

end

/-! ### Staged writes (R48) -/

section
variable {s : State} {index : Byte} {r : BitVec 64} (o : Origin)

theorem writeMapEntry_of_large (large : 64 ≤ index.toNat) : writeMapEntry index r o s = refuse .badArgument s := if_pos large

variable (small : index.toNat < 64)
include small

theorem writeMapEntry_of_held (held : s.targetHeld .map = true) : writeMapEntry index r o s = refuse .busy s := by
  rw [writeMapEntry, if_neg (Nat.not_le.mpr small), if_pos held]

variable (free : ¬s.targetHeld .map = true)
include free

theorem writeMapEntry_of_error {x : Result} (failed : decodeMapEntry r = .error x) :
    writeMapEntry index r o s = refuse x s := by
  rw [writeMapEntry, if_neg (Nat.not_le.mpr small), if_neg free, failed]

theorem writeMapEntry_of_ok {e : MapEntry} (passed : decodeMapEntry r = .ok e) :
    writeMapEntry index r o s = doneWith { s with map := s.map.setStagedEntry index.toNat e } := by
  rw [writeMapEntry, if_neg (Nat.not_le.mpr small), if_neg free, passed]

end

section
variable {s : State} {index : Byte} {r : BitVec 128} (o : Origin)

theorem writeConversionRecord_of_large (large : 16 ≤ index.toNat) :
    writeConversionRecord index r o s = refuse .badArgument s := if_pos large

variable (small : index.toNat < 16)
include small

theorem writeConversionRecord_of_held (held : s.targetHeld .conversion = true) :
    writeConversionRecord index r o s = refuse .busy s := by
  rw [writeConversionRecord, if_neg (Nat.not_le.mpr small), if_pos held]

variable (free : ¬s.targetHeld .conversion = true)
include free

theorem writeConversionRecord_of_error {x : Result} (failed : decodeConvRecord r = .error x) :
    writeConversionRecord index r o s = refuse x s := by
  rw [writeConversionRecord, if_neg (Nat.not_le.mpr small), if_neg free, failed]

theorem writeConversionRecord_of_ok {c : ConvRecord} (passed : decodeConvRecord r = .ok c) :
    writeConversionRecord index r o s = doneWith { s with map := s.map.setStagedRecord index.toNat c } := by
  rw [writeConversionRecord, if_neg (Nat.not_le.mpr small), if_neg free, passed]

end

/-! ### Commits (R52 to R56) -/

section
variable {s : State} (o : Origin)

theorem commit_of_held (held : s.anyHeld = true) : commit o s = refuse .busy (s.reportCommit o true (.busy o)) := if_pos held

variable (free : ¬s.anyHeld = true)
include free

theorem commit_of_rejected {entry check : Byte} (failed : s.map.validate = some (entry, check)) :
    commit o s = refuse .commitRejected (s.reportCommit o true (.rejected o entry check)) [entry, check] := by
  rw [commit, if_neg free, failed]

/-- What a commit leaves of MAP: roles exchanged, all four banks as staged, and the report. -/
theorem commit_of_passed (passed : s.map.validate = none) : commit o s = doneWith { s with map := { s.map with
    role := s.map.role.other, mapA := s.map.stagedMap, mapB := s.map.stagedMap, convA := s.map.stagedConv
    convB := s.map.stagedConv, report := .done o } } [s.map.role.other.code] := by
  rw [commit, if_neg free, passed]
  dsimp only
  rw [MapUnit.swap_spec]
  rfl

end

end Sys2Proof.Machine.Banks

open Sys2Proof.Machine.Banks

/-- Settles O37: each test of a staged write in its order, and the one bank that a write or a read names. -/
theorem recordsAreStagedAndRead : Obligations.RecordsAreStagedAndRead := by
  intro s high held
  have map : s.targetHeld .map = true ↔ held .map := targetHeld_iff .map
  have conversion : s.targetHeld .conversion = true ↔ held .conversion := targetHeld_iff .conversion
  refine ⟨fun index r => ⟨fun large => ?_, fun small busy => ?_, fun x small free failed => ?_, fun e small free passed => ?_⟩,
    fun index r => ⟨fun large => ?_, fun small busy => ?_, fun x small free failed => ?_, fun c small free passed => ?_⟩,
    fun index i number => ⟨?_, ?_⟩, fun index i number => ⟨?_, ?_⟩, fun index selector => ⟨fun large => ?_, fun large => ?_⟩⟩
  · exact Setpoints.event_held_refused _ _ s high (writeMapEntry_of_large _ large)
  · exact Setpoints.event_held_refused _ _ s high (writeMapEntry_of_held _ small (map.mpr busy))
  · exact Setpoints.event_held_refused _ _ s high (writeMapEntry_of_error _ small (mt map.mp free) failed)
  · obtain ⟨staged, active, rest⟩ := s.map.setStagedEntry_spec index.toNat e
    exact ⟨_, event_held_setMap _ _ high (writeMapEntry_of_ok _ small (mt map.mp free) passed), staged, active, rest⟩
  · exact Setpoints.event_held_refused _ _ s high (writeConversionRecord_of_large _ large)
  · exact Setpoints.event_held_refused _ _ s high (writeConversionRecord_of_held _ small (conversion.mpr busy))
  · exact Setpoints.event_held_refused _ _ s high (writeConversionRecord_of_error _ small (mt conversion.mp free) failed)
  · obtain ⟨staged, active, rest⟩ := s.map.setStagedRecord_spec index.toNat c
    exact ⟨_, event_held_setMap _ _ high (writeConversionRecord_of_ok _ small (mt conversion.mp free) passed), staged, active, rest⟩
  · exact event_held_read _ _ high (readMapEntry_of_bank _ rfl number)
  · exact event_held_read _ _ high (readMapEntry_of_bank _ rfl number)
  · exact event_held_read _ _ high (readConversionRecord_of_bank _ rfl number)
  · exact event_held_read _ _ high (readConversionRecord_of_bank _ rfl number)
  · exact Setpoints.event_held_refused _ _ s high (readMapEntry_of_large _ large)
  · exact Setpoints.event_held_refused _ _ s high (readConversionRecord_of_large _ large)

/-- Settles O39: the three outcomes of a commit, under either carrier; none makes an edge. -/
theorem commitSwapsOrReports : Obligations.CommitSwapsOrReports := by
  intro s high held
  have any : s.anyHeld = true ↔ held := anyHeld_iff
  have row (via : Via) (u : State) (work : carried via true commit s = u)
      (blocks : u.tb = s.tb ∧ u.chn = s.chn ∧ u.out = s.out ∧ u.tiu = s.tiu) : exec (.commit via) s = .next u :=
    Forwarding.event_of_work _ s u high work blocks
  refine ⟨fun busy => ⟨row .held _ ?_ ⟨rfl, rfl, rfl, rfl⟩, row .broadcast _ ?_ ⟨rfl, rfl, rfl, rfl⟩⟩,
    fun entry check free failed => ⟨row .held _ ?_ ⟨rfl, rfl, rfl, rfl⟩, row .broadcast _ ?_ ⟨rfl, rfl, rfl, rfl⟩⟩,
    fun free passed => ?_⟩
  · rw [carried_held, commit_of_held _ (any.mpr busy)]
    rfl
  · rw [carried_broadcast, commit_of_held _ (any.mpr busy)]
    rfl
  · rw [carried_held, commit_of_rejected _ (mt any.mp free) failed]
    rfl
  · rw [carried_broadcast, commit_of_rejected _ (mt any.mp free) failed]
    rfl
  · refine ⟨row .held _ ?_ ⟨rfl, rfl, rfl, rfl⟩, row .broadcast _ ?_ ⟨rfl, rfl, rfl, rfl⟩⟩
    · rw [carried_held, commit_of_passed _ (mt any.mp free) passed]
      cases s.map.role <;> rfl
    · rw [carried_broadcast, commit_of_passed _ (mt any.mp free) passed]
      cases s.map.role <;> rfl

/-- Settles O40, by the two cases of the rule. -/
theorem discardStagedCopiesTheActiveBanks : Obligations.DiscardStagedCopiesTheActiveBanks := by
  intro s high
  have any : s.anyHeld = true ↔
      s.lch[0].state = .active ∨ s.lch[0].state = .waiting ∨ s.lch[1].state = .active ∨ s.lch[1].state = .waiting := by
    rw [State.anyHeld, Bool.or_eq_true, Loads.holds_iff, Loads.holds_iff, or_assoc]
  refine ⟨fun busy => ?_, fun free => ?_, event_ignored _ s⟩
  · exact Setpoints.event_held_refused _ _ s high (if_pos (any.mpr busy))
  · refine event_held_setMap _ _ high ((if_neg (mt any.mp free)).trans ?_)
    rw [copyActive_eq]
end

section
/-! PROOFS. Validation: the walk over the staged entries, and each of its seven checks (R53, R62). -/

open Sys2Proof Sys2Proof.Machine

namespace Sys2Proof.Machine.Validation

/-! ### The walk -/

section
variable (conv : Vector ConvRecord 16)

/-- What the walk finds at an entry behind those of lower index. -/
def finding (lower : List MapEntry) (e : MapEntry) : Option Byte := if e.used then firstFailedCheck lower conv e else none

theorem finding_eq_none_iff (lower : List MapEntry) (e : MapEntry) :
    finding conv lower e = none ↔ (e.used = true → firstFailedCheck lower conv e = none) := by
  unfold finding
  split
  next used => exact ⟨fun none _ => none, fun all => all used⟩
  next unused => exact ⟨fun _ used => absurd used unused, fun _ => rfl⟩

theorem finding_eq_some_iff (lower : List MapEntry) (e : MapEntry) (check : Byte) :
    finding conv lower e = some check ↔ e.used = true ∧ firstFailedCheck lower conv e = some check := by
  unfold finding
  split
  next used => exact ⟨fun failed => ⟨used, failed⟩, And.right⟩
  next unused => exact ⟨(fun failed => nomatch failed), fun ⟨used, _⟩ => absurd used unused⟩

/-- The walk passes when it finds nothing at any entry. -/
theorem validateFrom_eq_none_iff (lower : List MapEntry) (i : Nat) (rest : List MapEntry) :
    validateFrom conv lower i rest = none ↔
      ∀ k (h : k < rest.length), finding conv (lower ++ rest.take k) rest[k] = none := by
  induction rest generalizing lower i with
  | nil => exact ⟨fun _ k h => absurd h (Nat.not_lt_zero k), fun _ => rfl⟩
  | cons e rest ih =>
    have walk : validateFrom conv lower i (e :: rest) = match finding conv lower e with
        | some c => some (BitVec.ofNat 8 i, c)
        | none => validateFrom conv (lower ++ [e]) (i + 1) rest := rfl
    rw [walk]
    cases found : finding conv lower e with
    | some c =>
      refine ⟨(fun none => nomatch none), fun all => ?_⟩
      have first := all 0 (Nat.succ_pos _)
      rw [List.take_zero, List.append_nil] at first
      exact absurd (found.symm.trans first) (by simp)
    | none =>
      rw [ih]
      constructor
      · intro all k h
        cases k with
        | zero => simpa using found
        | succ k => simpa using all k (Nat.lt_of_succ_lt_succ h)
      · intro all k h
        simpa using all (k + 1) (Nat.succ_lt_succ h)

/-- Otherwise it names the first entry at which it finds something, and what. -/
theorem of_validateFrom_eq_some (lower : List MapEntry) (i : Nat) (rest : List MapEntry) (index check : Byte)
    (failed : validateFrom conv lower i rest = some (index, check)) :
    ∃ k, ∃ h : k < rest.length, index = BitVec.ofNat 8 (i + k) ∧ finding conv (lower ++ rest.take k) rest[k] = some check ∧
      ∀ j (before : j < k), finding conv (lower ++ rest.take j) rest[j] = none := by
  induction rest generalizing lower i with
  | nil => exact nomatch failed
  | cons e rest ih =>
    have walk : validateFrom conv lower i (e :: rest) = match finding conv lower e with
        | some c => some (BitVec.ofNat 8 i, c)
        | none => validateFrom conv (lower ++ [e]) (i + 1) rest := rfl
    rw [walk] at failed
    cases found : finding conv lower e with
    | some c =>
      rw [found] at failed
      cases failed
      exact ⟨0, Nat.succ_pos _, rfl, by simpa using found, fun j before => absurd before (Nat.not_lt_zero j)⟩
    | none =>
      rw [found] at failed
      obtain ⟨k, h, rfl, here, before⟩ := ih _ _ failed
      refine ⟨k + 1, Nat.succ_lt_succ h, by rw [Nat.add_right_comm, Nat.add_assoc], by simpa using here, fun j less => ?_⟩
      cases j with
      | zero => simpa using found
      | succ j => simpa using before j (Nat.lt_of_succ_lt_succ less)

end

/-! ### The checks (R53) -/

/-- The checks in their order: the number of the first that fails. -/
theorem firstFailedCheck_eq_none_iff (lower : List MapEntry) (conv : Vector ConvRecord 16) (e : MapEntry) :
    firstFailedCheck lower conv e = none ↔ e.passesC1 = true ∧ e.passesC2 = true ∧ e.passesC3 = true ∧
      e.passesC4 conv = true ∧ e.passesC5 = true ∧ e.passesC6 lower = true ∧ e.passesC7 lower = true := by
  unfold firstFailedCheck
  grind

theorem firstFailedCheck_eq_some_iff (lower : List MapEntry) (conv : Vector ConvRecord 16) (e : MapEntry) (check : Byte) :
    firstFailedCheck lower conv e = some check ↔
      (check = 1 ∧ ¬e.passesC1 = true) ∨
      (check = 2 ∧ e.passesC1 = true ∧ ¬e.passesC2 = true) ∨
      (check = 3 ∧ e.passesC1 = true ∧ e.passesC2 = true ∧ ¬e.passesC3 = true) ∨
      (check = 4 ∧ e.passesC1 = true ∧ e.passesC2 = true ∧ e.passesC3 = true ∧ ¬e.passesC4 conv = true) ∨
      (check = 5 ∧ e.passesC1 = true ∧ e.passesC2 = true ∧ e.passesC3 = true ∧ e.passesC4 conv = true ∧
        ¬e.passesC5 = true) ∨
      (check = 6 ∧ e.passesC1 = true ∧ e.passesC2 = true ∧ e.passesC3 = true ∧ e.passesC4 conv = true ∧
        e.passesC5 = true ∧ ¬e.passesC6 lower = true) ∨
      (check = 7 ∧ e.passesC1 = true ∧ e.passesC2 = true ∧ e.passesC3 = true ∧ e.passesC4 conv = true ∧
        e.passesC5 = true ∧ e.passesC6 lower = true ∧ ¬e.passesC7 lower = true) := by
  unfold firstFailedCheck
  grind

section
variable (e : MapEntry)

/-- A check of consumed entries lets the produced ones pass. -/
theorem produce_or_iff {p : Prop} : (e.direction = .produce ∨ p) ↔ (e.direction = .consume → p) := by
  cases e.direction <;> simp

theorem consume_or_iff {p : Prop} : (e.direction = .consume ∨ p) ↔ (e.direction = .produce → p) := by
  cases e.direction <;> simp

theorem passesC1_iff : e.passesC1 = true ↔ e.offset.toNat + e.width.toNat ≤ 240 := decide_eq_true_iff

theorem passesC2_iff : e.passesC2 = true ↔ (e.format = .float → e.direction = .consume ∧ e.width = 4) := by
  rw [MapEntry.passesC2, decide_eq_true_iff, ne_eq, imp_iff_not_or]

theorem passesC3_iff : e.passesC3 = true ↔ (e.direction = .consume → e.target.toNat ≤ 5) := by
  rw [MapEntry.passesC3, decide_eq_true_iff, produce_or_iff, Nat.lt_succ_iff]

theorem passesC4_iff (conv : Vector ConvRecord 16) : e.passesC4 conv = true ↔ (e.direction = .consume →
    e.conversion = 0xFF ∨ ∃ k : Fin 16, e.conversion.toNat = k.val ∧ conv[k].defined = true) := by
  have named : (conv[e.conversion.toNat]?).any (·.defined) = true ↔
      ∃ k : Fin 16, e.conversion.toNat = k.val ∧ conv[k].defined = true := by
    constructor
    · intro defined
      obtain ⟨c, found, isDefined⟩ := (Option.any_eq_true _ _).mp defined
      obtain ⟨small, rfl⟩ := Vector.getElem?_eq_some_iff.mp found
      exact ⟨⟨_, small⟩, rfl, isDefined⟩
    · rintro ⟨k, number, defined⟩
      rw [number, Vector.getElem?_eq_getElem k.isLt]
      exact defined
  rw [MapEntry.passesC4, decide_eq_true_iff, produce_or_iff, named]

/-- The sources of R62: their indexes and their widths. -/
theorem sourceAccepted_iff (target source width : Nat) :
    (match sourceShape target with
      | none => false
      | some (range, widths) => decide (source < range) && widths.contains width) = true ↔
      (target = 0 ∧ source = 0 ∧ (width = 1 ∨ width = 2 ∨ width = 4)) ∨
      ((target = 1 ∨ target = 8) ∧ source ≤ 5 ∧ width = 2) ∨
      ((target = 2 ∨ target = 3) ∧ source ≤ 5 ∧ width = 1) ∨
      ((target = 4 ∨ target = 5 ∨ target = 9) ∧ source = 0 ∧ width = 1) ∨
      (target = 6 ∧ source = 0 ∧ width = 2) ∨
      (target = 7 ∧ source ≤ 1 ∧ width = 2) := by
  match target with
  | 0 | 4 | 5 | 6 | 9 | n + 10 => simp [sourceShape]
  | 1 | 2 | 3 | 7 | 8 => simp [sourceShape, Nat.lt_succ_iff]

theorem passesC5_iff : e.passesC5 = true ↔ (e.direction = .produce →
    e.format = .unsigned ∧
      ((e.target = 0x00 ∧ e.source = 0 ∧ (e.width = 1 ∨ e.width = 2 ∨ e.width = 4)) ∨
        ((e.target = 0x01 ∨ e.target = 0x08) ∧ e.source.toNat ≤ 5 ∧ e.width = 2) ∨
        ((e.target = 0x02 ∨ e.target = 0x03) ∧ e.source.toNat ≤ 5 ∧ e.width = 1) ∨
        ((e.target = 0x04 ∨ e.target = 0x05 ∨ e.target = 0x09) ∧ e.source = 0 ∧ e.width = 1) ∨
        (e.target = 0x06 ∧ e.source = 0 ∧ e.width = 2) ∨
        (e.target = 0x07 ∧ e.source.toNat ≤ 1 ∧ e.width = 2))) := by
  rw [MapEntry.passesC5, Bool.or_eq_true, Bool.and_eq_true, decide_eq_true_iff, decide_eq_true_iff, consume_or_iff]
  refine imp_congr_right fun _ => and_congr_right fun _ =>
    (sourceAccepted_iff e.target.toNat e.source.toNat e.width.toNat).trans ?_
  simp only [← BitVec.toNat_inj]
  exact Iff.rfl

theorem passesC6_iff (lower : List MapEntry) : e.passesC6 lower = true ↔ (e.direction = .consume → ∀ l ∈ lower,
    l.used = true → l.direction = .consume → l.group = e.group → l.target ≠ e.target) := by
  rw [MapEntry.passesC6, decide_eq_true_iff, produce_or_iff]
  simp

theorem overlaps_eq_false_iff (l : MapEntry) : l.overlaps e = false ↔
    l.offset.toNat + l.width.toNat ≤ e.offset.toNat ∨ e.offset.toNat + e.width.toNat ≤ l.offset.toNat := by
  rw [MapEntry.overlaps, decide_eq_false_iff_not, MapEntry.stop, MapEntry.stop]
  omega

theorem passesC7_iff (lower : List MapEntry) : e.passesC7 lower = true ↔ (e.direction = .produce → ∀ l ∈ lower,
    l.used = true → l.direction = .produce → l.group = e.group →
      l.offset.toNat + l.width.toNat ≤ e.offset.toNat ∨ e.offset.toNat + e.width.toNat ≤ l.offset.toNat) := by
  rw [MapEntry.passesC7, decide_eq_true_iff, consume_or_iff]
  simp [overlaps_eq_false_iff]

end

/-- The entries of lower index, as the walk hands them on. -/
theorem forall_mem_take_iff (v : Vector MapEntry 64) (i : Fin 64) (p : MapEntry → Prop) :
    (∀ l ∈ v.toList.take i.val, p l) ↔ ∀ j : Fin 64, j < i → p v[j] := by
  constructor
  · intro all j before
    refine all _ (List.mem_take_iff_getElem.mpr ⟨j.val, ?_, ?_⟩)
    · rw [Vector.length_toList]
      exact Nat.lt_min.mpr ⟨before, j.isLt⟩
    · rw [Vector.getElem_toList]
      rfl
  · intro all l listed
    obtain ⟨k, h, rfl⟩ := List.mem_take_iff_getElem.mp listed
    obtain ⟨before, inside⟩ := Nat.lt_min.mp h
    rw [Vector.getElem_toList]
    exact all ⟨k, Nat.lt_trans before i.isLt⟩ before

end Sys2Proof.Machine.Validation

open Sys2Proof.Machine.Validation

/-- Settles O38: the walk by induction on the entries that remain, each check by its own equivalence. -/
theorem validationAppliesTheSevenChecks : Obligations.ValidationAppliesTheSevenChecks := by
  intro m e stop c1 c2 c3 c4 c5 c6 c7 passes
  have length : m.stagedMap.toList.length = 64 := Vector.length_toList
  have entry (i : Fin 64) : m.stagedMap.toList[i.val]'(length.symm ▸ i.isLt) = e i := Vector.getElem_toList _
  have check6 (i : Fin 64) : (e i).passesC6 (m.stagedMap.toList.take i.val) = true ↔ c6 i := by
    rw [passesC6_iff, forall_mem_take_iff]
  have check7 (i : Fin 64) : (e i).passesC7 (m.stagedMap.toList.take i.val) = true ↔ c7 i := by
    rw [passesC7_iff, forall_mem_take_iff]
  have passing (i : Fin 64) : finding m.stagedConv ([] ++ m.stagedMap.toList.take i.val) (e i) = none ↔
      ((e i).used = true → passes i) := by
    rw [finding_eq_none_iff, List.nil_append, firstFailedCheck_eq_none_iff, passesC1_iff, passesC2_iff, passesC3_iff,
      passesC4_iff, passesC5_iff, check6, check7]
  refine ⟨?_, fun index check failed => ?_⟩
  · rw [MapUnit.validate, validateFrom_eq_none_iff]
    constructor
    · intro all i
      have here := all i.val (length.symm ▸ i.isLt)
      rw [entry] at here
      exact (passing i).mp here
    · intro all k h
      have := (passing ⟨k, length ▸ h⟩).mpr (all ⟨k, length ▸ h⟩)
      rwa [← entry] at this
  · obtain ⟨k, h, rfl, here, before⟩ := of_validateFrom_eq_some _ _ _ _ _ _ failed
    rw [length] at h
    have first := entry ⟨k, h⟩
    dsimp only at first
    rw [first, finding_eq_some_iff, List.nil_append, firstFailedCheck_eq_some_iff] at here
    obtain ⟨used, which⟩ := here
    refine ⟨⟨k, h⟩, ?_, used, fun j less => ?_, ?_⟩
    · rw [Nat.zero_add, BitVec.toNat_ofNat]
      exact Nat.mod_eq_of_lt (Nat.lt_trans h (by decide))
    · have none := before j.val less
      rw [entry] at none
      exact (passing j).mp none
    · simpa only [passesC1_iff, passesC2_iff, passesC3_iff, passesC4_iff, passesC5_iff, check6 ⟨k, h⟩, check7 ⟨k, h⟩]
        using which
end

section
/-! PROOFS. The telegram plan: which entries it holds, in which order, and what it opens in sound banks (R58, R59, R68). -/

open Sys2Proof Sys2Proof.Machine

namespace Sys2Proof.Machine.Plans

/-! ### The order of the plan (R58) -/

/-- By offset, then by index. -/
def Before (a b : PlanEntry) : Prop :=
  a.entry.offset.toNat < b.entry.offset.toNat ∨ (a.entry.offset = b.entry.offset ∧ a.index < b.index)

theorem Before.offset_le {a b : PlanEntry} (h : Before a b) : a.entry.offset.toNat ≤ b.entry.offset.toNat := by
  rcases h with less | ⟨same, -⟩
  · exact Nat.le_of_lt less
  · rw [same]

theorem Before.index_ne {a b : PlanEntry} (h : Before a b) : a.index = b.index → a.entry.offset ≠ b.entry.offset := by
  rintro same offset
  rcases h with less | ⟨-, less⟩
  · rw [offset] at less
    exact absurd less (Nat.lt_irrefl _)
  · omega

/-- An entry of lower index goes before those of its offset. -/
theorem before_of_le {a b : PlanEntry} (index : a.index < b.index) (offset : a.entry.offset.toNat ≤ b.entry.offset.toNat) :
    Before a b := by
  rcases Nat.lt_or_eq_of_le offset with less | same
  · exact .inl less
  · exact .inr ⟨BitVec.eq_of_toNat_eq same, index⟩

theorem insertPlan_perm (x : PlanEntry) (l : List PlanEntry) : (insertPlan x l).Perm (x :: l) := by
  induction l with
  | nil => exact .refl _
  | cons y ys ih =>
    unfold insertPlan
    split
    · exact .refl _
    · exact (ih.cons y).trans (.swap x y ys)

theorem sortPlan_perm (l : List PlanEntry) : (sortPlan l).Perm l := by
  induction l with
  | nil => exact .refl _
  | cons x l ih => exact (insertPlan_perm x (sortPlan l)).trans (ih.cons x)

theorem insertPlan_pairwise (x : PlanEntry) (l : List PlanEntry) (sorted : l.Pairwise Before)
    (lowest : ∀ y ∈ l, x.index < y.index) : (insertPlan x l).Pairwise Before := by
  induction l with
  | nil => exact List.pairwise_singleton _ x
  | cons y ys ih =>
    obtain ⟨first, rest⟩ := List.pairwise_cons.mp sorted
    have lower := lowest y List.mem_cons_self
    have lowerRest (z : PlanEntry) (listed : z ∈ ys) := lowest z (List.mem_cons_of_mem y listed)
    unfold insertPlan
    split
    next le =>
      refine List.pairwise_cons.mpr ⟨fun z listed => ?_, sorted⟩
      rcases List.mem_cons.mp listed with rfl | behind
      · exact before_of_le lower le
      · exact before_of_le (lowerRest z behind) (Nat.le_trans le (first z behind).offset_le)
    next greater =>
      refine List.pairwise_cons.mpr ⟨fun z listed => ?_, ih rest lowerRest⟩
      rcases List.mem_cons.mp ((insertPlan_perm x ys).mem_iff.mp listed) with rfl | behind
      · exact .inl (Nat.not_le.mp greater)
      · exact first z behind

/-- Entries in ascending index order are sorted by offset, then index. -/
theorem sortPlan_pairwise (l : List PlanEntry) (ascending : l.Pairwise fun a b => a.index < b.index) :
    (sortPlan l).Pairwise Before := by
  induction l with
  | nil => exact .nil
  | cons x l ih =>
    obtain ⟨lowest, rest⟩ := List.pairwise_cons.mp ascending
    exact insertPlan_pairwise x (sortPlan l) (ih rest) fun y listed => lowest y ((sortPlan_perm l).mem_iff.mp listed)

/-! ### The entries of a group (R58, R59) -/

section
variable (m : MapUnit) (group : Byte)

theorem mem_selectGroup (x : PlanEntry) : x ∈ m.selectGroup group ↔ ∃ i : Fin 64, x.index = i.val ∧
    x.entry = m.activeMap[i] ∧ x.entry.used = true ∧ x.entry.group = group := by
  rw [MapUnit.selectGroup, List.mem_map]
  constructor
  · rintro ⟨⟨entry, index⟩, listed, rfl⟩
    obtain ⟨among, selected⟩ := List.mem_filter.mp listed
    obtain ⟨used, own⟩ := Bool.and_eq_true_iff.mp selected
    obtain ⟨h, same⟩ := List.getElem?_eq_some_iff.mp (List.mk_mem_zipIdx_iff_getElem?.mp among)
    rw [Vector.length_toList] at h
    exact ⟨⟨index, h⟩, rfl, by rw [← same]; rfl, used, of_decide_eq_true own⟩
  · rintro ⟨i, index, entry, used, own⟩
    refine ⟨(x.entry, x.index), List.mem_filter.mpr ⟨?_, ?_⟩, rfl⟩
    · rw [List.mk_mem_zipIdx_iff_getElem?, index, entry]
      exact List.getElem?_eq_some_iff.mpr ⟨by rw [Vector.length_toList]; exact i.isLt, rfl⟩
    · exact Bool.and_eq_true_iff.mpr ⟨used, decide_eq_true own⟩

theorem selectGroup_ascending : (m.selectGroup group).Pairwise fun a b => a.index < b.index := by
  have indexes : (m.activeMap.toList.zipIdx.map Prod.snd).Pairwise (· < ·) := by
    rw [List.zipIdx_map_snd]
    exact List.pairwise_lt_range'
  exact List.pairwise_map.mpr ((List.pairwise_map.mp indexes).filter _)

theorem mem_buildPlan (len : Nat) (x : PlanEntry) : x ∈ m.buildPlan group len ↔ ∃ i : Fin 64, x.index = i.val ∧
    x.entry = m.activeMap[i] ∧ x.entry.used = true ∧ x.entry.group = group ∧
    x.entry.offset.toNat + x.entry.width.toNat ≤ len := by
  rw [MapUnit.buildPlan, List.mem_filter, (sortPlan_perm _).mem_iff, mem_selectGroup, decide_eq_true_iff, MapEntry.stop]
  constructor
  · rintro ⟨⟨i, index, entry, used, own⟩, fits⟩
    exact ⟨i, index, entry, used, own, fits⟩
  · rintro ⟨i, index, entry, used, own, fits⟩
    exact ⟨⟨i, index, entry, used, own⟩, fits⟩

theorem buildPlan_pairwise (len : Nat) : (m.buildPlan group len).Pairwise Before :=
  (sortPlan_pairwise _ (selectGroup_ascending m group)).filter _

end

/-! ### Sound banks: one pending write for a channel (R53 C3, C6) -/

section
variable {s : State} (sound : BanksSound s)
include sound

/-- The active banks pass the seven checks, as the banks of a unit that has them staged. -/
theorem active_checks : (∀ i : Fin 64, s.map.activeMap[i].used = true → s.map.activeMap[i].direction = .consume →
      s.map.activeMap[i].target.toNat ≤ 5) ∧
    ∀ i j : Fin 64, j < i → s.map.activeMap[i].used = true → s.map.activeMap[j].used = true →
      s.map.activeMap[i].direction = .consume → s.map.activeMap[j].direction = .consume →
      s.map.activeMap[j].group = s.map.activeMap[i].group → s.map.activeMap[j].target ≠ s.map.activeMap[i].target := by
  have checks := (validationAppliesTheSevenChecks
    { s.map with role := .a, mapB := s.map.activeMap, convB := s.map.activeConv }).1.mp sound.active
  refine ⟨fun i used consume => ?_, fun i j less used usedJ consume consumeJ group => ?_⟩
  · obtain ⟨-, -, target, -⟩ := checks i used
    exact target consume
  · obtain ⟨-, -, -, -, -, single, -⟩ := checks i used
    exact single consume j less usedJ consumeJ group

theorem consume_targets (group : Byte) (len : Nat) : ((s.map.buildPlan group len).filter
    fun p => p.entry.direction = .consume).Pairwise fun a b => a.entry.target ≠ b.entry.target := by
  obtain ⟨-, single⟩ := active_checks sound
  refine ((buildPlan_pairwise s.map group len).filter _).imp_of_mem fun {a b} listedA listedB before => ?_
  obtain ⟨plannedA, consumeA⟩ := List.mem_filter.mp listedA
  obtain ⟨plannedB, consumeB⟩ := List.mem_filter.mp listedB
  obtain ⟨i, indexA, entryA, usedA, ownA, -⟩ := (mem_buildPlan ..).mp plannedA
  obtain ⟨j, indexB, entryB, usedB, ownB, -⟩ := (mem_buildPlan ..).mp plannedB
  have directionA := of_decide_eq_true consumeA
  have directionB := of_decide_eq_true consumeB
  have other : i ≠ j := by
    rintro rfl
    exact before.index_ne (indexA.trans indexB.symm) (by rw [entryA, entryB])
  rw [entryA] at usedA ownA directionA ⊢
  rw [entryB] at usedB ownB directionB ⊢
  rcases lt_or_gt_of_ne other with less | greater
  · exact single j i less usedB usedA directionB directionA (ownA.trans ownB.symm)
  · exact (single i j greater usedA usedB directionA directionB (ownB.trans ownA.symm)).symm

end

/-- Distinct channel numbers below 6 are six at most. -/
theorem length_le_six (l : List Byte) (distinct : l.Nodup) (small : ∀ b ∈ l, b.toNat ≤ 5) : l.length ≤ 6 := by
  have numbers : (l.map BitVec.toNat).Nodup := distinct.map fun a b same => BitVec.eq_of_toNat_eq same
  have within : l.map BitVec.toNat ⊆ List.range 6 := by
    intro v listed
    obtain ⟨b, among, rfl⟩ := List.mem_map.mp listed
    exact List.mem_range.mpr (Nat.lt_succ_of_le (small b among))
  simpa using (List.subperm_of_subset numbers within).length_le

end Sys2Proof.Machine.Plans

open Sys2Proof.Machine.Plans

/-- Settles O41: insertion sort of entries in ascending index order, and the checks C3 and C6 of the active banks. -/
theorem planHoldsTheFittingEntriesInOrder : Obligations.PlanHoldsTheFittingEntriesInOrder := by
  refine ⟨fun m group len => ⟨mem_buildPlan m group len, buildPlan_pairwise m group len⟩, ?_⟩
  intro s seen group cycle len sound holding
  have each : ∀ w ∈ holding, w.channel.toNat ≤ 5 ∧ w.raw = [] ∧ w.cycle = cycle := by
    intro w listed
    obtain ⟨p, among, rfl⟩ := List.mem_map.mp listed
    obtain ⟨planned, consume⟩ := List.mem_filter.mp among
    obtain ⟨i, -, entry, used, -⟩ := (mem_buildPlan ..).mp planned
    have direction := of_decide_eq_true consume
    rw [entry] at used direction
    refine ⟨?_, rfl, rfl⟩
    show p.entry.target.toNat ≤ 5
    rw [entry]
    exact (active_checks sound).1 i used direction
  have distinct : (holding.map (·.channel)).Nodup :=
    List.pairwise_map.mpr (List.pairwise_map.mpr (consume_targets sound group len))
  refine ⟨distinct, each, ?_⟩
  rw [← List.length_map (f := PendingWrite.channel)]
  refine length_le_six _ distinct fun b listed => ?_
  obtain ⟨w, among, rfl⟩ := List.mem_map.mp listed
  exact (each w among).1
end

section
/-! PROOFS. The check value (R5, R6) and the character receiver (R1, R2, R15). -/

open Sys2Proof Sys2Proof.Machine

namespace Sys2Proof.Machine.Receiver

/-! ### The check value -/

theorem polynomial_getLsbD : ∀ i, i < 16 →
    (0x1021#16).getLsbD i = (decide (i = 12) || decide (i = 5) || decide (i = 0)) := by decide

theorem shifted_getLsbD (acc : Half) (i : Nat) (h : i < 16) :
    (acc <<< 1).getLsbD i = if i = 0 then false else acc.getLsbD (i - 1) := by
  rw [BitVec.getLsbD_shiftLeft, decide_eq_true h, Bool.true_and]
  split
  next zero => rw [zero]; rfl
  next positive =>
    have behind : ¬i < 1 := by omega
    rw [decide_eq_false behind]
    rfl

theorem checkBit_getLsbD (acc : Half) (b : Bool) (i : Nat) (h : i < 16) :
    (checkBit acc b).getLsbD i = ((if i = 0 then false else acc.getLsbD (i - 1)) ^^
      ((acc.getLsbD 15 ^^ b) && (decide (i = 12) || decide (i = 5) || decide (i = 0)))) := by
  have top : acc.msb = acc.getLsbD 15 := BitVec.msb_eq_getLsbD_last acc
  rw [checkBit, top, ← shifted_getLsbD acc i h, ← polynomial_getLsbD i h]
  cases acc.getLsbD 15 ^^ b with
  | true =>
    rw [if_pos rfl, BitVec.getLsbD_xor, Bool.true_and]
    rfl
  | false => rw [if_neg (by decide), Bool.false_and, Bool.xor_false]

theorem byte_getLsbD (v : Half) (i : Nat) (h : i < 8) :
    (highByte v).getLsbD i = v.getLsbD (i + 8) ∧ (lowByte v).getLsbD i = v.getLsbD i := by
  rw [highByte, lowByte, BitVec.getLsbD_extractLsb', BitVec.getLsbD_extractLsb', decide_eq_true h, Bool.true_and,
    Bool.true_and, Nat.zero_add, Nat.add_comm]
  exact ⟨rfl, rfl⟩

/-! ### A character at the parser -/

/-- The stop-bit sample, then the parser (R1, R2). -/
theorem exec_character {s : State} (high : s.released) (receiving : s.lrx.rx = .receiving true) (data : Byte)
    (marker stop : Bool) (time : Nat) : exec (.characterReceived data marker stop time) s =
      .next (settleEdges s ((s.afterStopBit stop).parse { data := data, marker := marker, time := time } stop)) :=
  (event_high _ s high).trans (congrArg (fun u => Host.Outcome.next (settleEdges s u)) (if_pos receiving))

/-- A character whose work makes no edge. -/
theorem exec_character_of_parse {s u : State} (high : s.released) (receiving : s.lrx.rx = .receiving true) {data : Byte}
    {marker stop : Bool} {time : Nat}
    (parsed : (s.afterStopBit stop).parse { data := data, marker := marker, time := time } stop = u)
    (blocks : u.tb = s.tb ∧ u.chn = s.chn ∧ u.out = s.out ∧ u.tiu = s.tiu) :
    exec (.characterReceived data marker stop time) s = .next u := by
  obtain ⟨tb, chn, out, tiu⟩ := blocks
  rw [exec_character high receiving, parsed, settleEdges_of_blocks s u tb chn out tiu]

/-! ### The parser leaves the receiver's state -/

section
variable {s u : State}

theorem lineWork_rx (work : LineWork s u) : u.lrx.rx = s.lrx.rx := by rw [work.lrx]

theorem ruleWork_rx (work : RuleWork s u) : u.lrx.rx = s.lrx.rx := by rw [work.lrx]

/-- Work under a condition, and none without it. -/
theorem guarded_rx {p : Prop} [Decidable p] (work : u.lrx.rx = s.lrx.rx) : (if p then u else s).lrx.rx = s.lrx.rx := by
  split
  · exact work
  · rfl

end

section
variable (s : State)

theorem fixRestartPoint_rx : s.fixRestartPoint.lrx.rx = s.lrx.rx := guarded_rx rfl

theorem executeTelegram_rx (t : Telegram) : (s.executeTelegram t).1.lrx.rx = s.lrx.rx := by
  unfold State.executeTelegram
  dsimp only
  split
  · unfold State.takeOffer
    split <;> rfl
  · have executed := ruleWork_rx (executeHeld_rule (payloadOf s.fwd.hold) s)
    exact executed

theorem endHeld_rx (t : Telegram) (good : Bool) : (s.endHeld t good).lrx.rx = s.lrx.rx := by
  unfold State.endHeld
  split
  · rfl
  · split
    · exact (fixRestartPoint_rx _).trans ((lineWork_rx (State.enterFifo_work _ _)).trans (executeTelegram_rx s t))
    · have entered := lineWork_rx (s.enterFifo_work s.fwd.hold)
      exact entered

theorem endForward_rx (t : Telegram) (good : Bool) (first : Byte) (c : LineChar) :
    (s.endForward t good first c).lrx.rx = s.lrx.rx := by
  unfold State.endForward
  split
  case h_1 => exact lineWork_rx (s.endPassing_work good first c)
  case h_2 => exact endHeld_rx _ t good
  all_goals rfl

theorem endData_rx (cycle : Byte) (good : Bool) : (s.endData cycle good).lrx.rx = s.lrx.rx := by
  unfold State.endData
  split
  · obtain ⟨u, ⟨-, ⟨lrx, -⟩, -⟩, processed⟩ := s.processHolding_work cycle
    obtain ⟨-, -, ⟨lrx', -⟩, -⟩ := (s.processHolding cycle).loadsAtEnd_work
    rw [lrx', processed, lrx]
  · rfl

theorem endTelegram_rx (t : Telegram) (good : Bool) (first : Byte) (c : LineChar) :
    (s.endTelegram t good first c).lrx.rx = s.lrx.rx := by
  have forwarded := endForward_rx s t good first c
  unfold State.endTelegram
  dsimp only
  split
  case h_1 => exact (endData_rx _ _ _).trans forwarded
  case h_2 =>
    exact (guarded_rx ((fixRestartPoint_rx _).trans (ruleWork_rx (executeBroadcast_rule _ _)))).trans forwarded
  all_goals exact forwarded

theorem takeCheck2_rx (t : Telegram) (first : Byte) (c : LineChar) : (s.takeCheck2 t first c).lrx.rx = s.lrx.rx := by
  unfold State.takeCheck2
  refine (endTelegram_rx _ t _ first c).trans ?_
  split <;> rfl

theorem takeCheck1_rx (t : Telegram) (c : LineChar) : (s.takeCheck1 t c).lrx.rx = s.lrx.rx := by
  unfold State.takeCheck1
  dsimp only
  split
  case h_1 =>
    have passed (u : State) (cs : List LineChar) := lineWork_rx (u.passChars_work cs)
    exact passed _ _
  all_goals rfl

theorem takePayload_rx (t : Telegram) (pos : Nat) (c : LineChar) : (s.takePayload t pos c).lrx.rx = s.lrx.rx := by
  have forwarded := lineWork_rx ((s.feedCheck c).forwardPayload_work t pos c)
  unfold State.takePayload
  dsimp only
  split <;> exact forwarded

theorem openData_rx (before : State) (chars : List LineChar) (h0 h1 : Byte) (len : Nat) :
    (State.openData before s chars h0 h1 len).lrx.rx = s.lrx.rx := by
  unfold State.openData
  dsimp only
  split <;> rfl

theorem completeHeader_rx (h0 h1 : Byte) (c : LineChar) : (s.completeHeader h0 h1 c).lrx.rx = s.lrx.rx := by
  have counted : (if lengthAccepted (kindOf h0) c.data.toNat then s else s.countError .length).lrx.rx = s.lrx.rx := by
    split <;> rfl
  unfold State.completeHeader
  dsimp only
  generalize (if lengthAccepted (kindOf h0) c.data.toNat then s else s.countError .length) = u at counted ⊢
  have released := (lineWork_rx (u.releaseHeader_work (treatmentOf s.lrx.address h0 h1 c.data.toNat)
    (u.fwd.stage ++ [c]))).trans counted
  split
  · exact (openData_rx _ _ _ _ _ _).trans released
  · exact released

theorem takeHeader_rx (h0 : Byte) (h1 : Option Byte) (c : LineChar) : (s.takeHeader h0 h1 c).lrx.rx = s.lrx.rx := by
  cases h1 with
  | none => rfl
  | some h1 => exact completeHeader_rx (s.feedCheck c) h0 h1 c

theorem abortTelegram_rx (e : LineError) : (s.abortTelegram e).lrx.rx = s.lrx.rx := by
  have aborted := lineWork_rx s.abortForward_work
  exact aborted

theorem inside_rx (c : LineChar) (good : Bool) {take : State} (taken : take.lrx.rx = s.lrx.rx) :
    (s.inside c good take).lrx.rx = s.lrx.rx := by
  unfold State.inside
  split
  · exact abortTelegram_rx s .framing
  · split
    · exact abortTelegram_rx s .truncated
    · exact taken

theorem parse_rx (c : LineChar) (good : Bool) : (s.parse c good).lrx.rx = s.lrx.rx := by
  unfold State.parse
  split
  · split
    · split <;> rfl
    · exact guarded_rx (lineWork_rx (s.enterFifo_work [c]))
  · split
    · split <;> rfl
    · rfl
  · exact inside_rx s c good (takeHeader_rx s _ _ c)
  · exact inside_rx s c good (takePayload_rx s _ _ c)
  · exact inside_rx s c good (takeCheck1_rx s _ c)
  · exact inside_rx s c good (takeCheck2_rx s _ _ c)

end

end Sys2Proof.Machine.Receiver

open Sys2Proof.Machine.Receiver

/-- Settles O50: one bit by the shift and the polynomial; the rest by the definitions. -/
theorem checkValueIsComputedBitByBit : Obligations.CheckValueIsComputedBitByBit := by
  refine ⟨checkBit_getLsbD, fun acc d => rfl, fun acc ds d => ⟨rfl, ?_⟩, byte_getLsbD, fun c s time idle marker _ => ?_⟩
  · rw [checkBytes, List.foldl_append]
    rfl
  · unfold State.parse
    rw [idle]
    dsimp only
    rw [if_pos marker]
    rfl

/-- Settles O51: each event has its state, and what the parser does with a character leaves the receiver. -/
theorem receiverMovesThroughItsStates : Obligations.ReceiverMovesThroughItsStates := by
  intro s high
  refine ⟨fun waiting => ?_, fun other => ?_, fun ready => ?_, fun other => ?_, fun edge => ⟨?_, ?_⟩, fun other level => ?_,
    fun other data marker stop time => ?_, fun receiving data marker stop time => ?_⟩
  · exact Forwarding.event_of_work _ s _ high (if_pos waiting) ⟨rfl, rfl, rfl, rfl⟩
  · exact Forwarding.event_of_self _ s (if_neg other)
  · exact Forwarding.event_of_work _ s _ high (if_pos ready) ⟨rfl, rfl, rfl, rfl⟩
  · exact Forwarding.event_of_self _ s (if_neg other)
  · exact Forwarding.event_of_work _ s _ high (if_pos edge) ⟨rfl, rfl, rfl, rfl⟩
  · exact Forwarding.event_of_work _ s _ high (if_pos edge) ⟨rfl, rfl, rfl, rfl⟩
  · exact Forwarding.event_of_self _ s (if_neg other)
  · exact Forwarding.event_of_self _ s (if_neg other)
  · exact ⟨_, exec_character high receiving data marker stop time, parse_rx (s.afterStopBit stop) _ stop⟩
end

section
/-! PROOFS. Characters between telegrams (R7, R14, R27), and aborts (R14 to R17, R26, R34, R35). -/

open Sys2Proof Sys2Proof.Machine Sys2Proof.Machine.Receiver

namespace Sys2Proof.Machine.Characters

/-! ### The parser in IDLE and in SKIP (R7) -/

section
variable {s : State} {c : LineChar}

theorem parse_header (between : s.lrx.parser = .idle ∨ s.lrx.parser = .skip) (marker : c.marker = true) :
    s.parse c true = s.beginTelegram c := by
  unfold State.parse
  rcases between with parser | parser
  · rw [parser]
    simp only [marker, if_true]
  · rw [parser]
    simp only [marker, if_true]

theorem parse_bad_header (between : s.lrx.parser = .idle ∨ s.lrx.parser = .skip) (marker : c.marker = true) :
    s.parse c false = { s.countError .framing with lrx := { (s.countError .framing).lrx with parser := .skip } } := by
  unfold State.parse
  rcases between with parser | parser
  · rw [parser]
    simp only [marker, if_true, Bool.false_eq_true, if_false]
  · rw [parser]
    simp only [marker, if_true, Bool.false_eq_true, if_false, ← parser]
    rfl

theorem parse_bad_plain (between : s.lrx.parser = .idle ∨ s.lrx.parser = .skip) (plain : c.marker = false) :
    s.parse c false = s := by
  unfold State.parse
  rcases between with parser | parser
  · rw [parser]
    simp only [plain, Bool.false_eq_true, if_false]
  · rw [parser]
    simp only [plain, Bool.false_eq_true, if_false]

theorem parse_idle (parser : s.lrx.parser = .idle) (plain : c.marker = false) : s.parse c true = s.enterFifo [c] := by
  unfold State.parse
  rw [parser]
  simp only [plain, Bool.false_eq_true, if_false, if_true]

theorem parse_skip (parser : s.lrx.parser = .skip) (plain : c.marker = false) (good : Bool) : s.parse c good = s := by
  unfold State.parse
  rw [parser]
  simp only [plain, Bool.false_eq_true, if_false]

/-- With no place left an entry is counted, and the high-water mark stands at the capacity (R29, R30). -/
theorem enterFifo_full {cs : List LineChar} (chars : cs ≠ []) (full : s.fwd.fifo.length = 128) :
    s.enterFifo cs = State.countError { s with fwd.highWater := max s.fwd.highWater 128 } .overrun := by
  have unfit : s.fits cs = false := by
    have some_char := List.length_pos_iff.mpr chars
    rw [State.fits, decide_eq_false_iff_not, State.level, full, show Config.fifoCapacity = 128 from rfl]
    omega
  have no_place : Config.fifoCapacity - s.level = 0 := by rw [State.level, full]; rfl
  unfold State.enterFifo
  dsimp only
  rw [unfit, no_place, if_neg (by decide), List.take_zero, List.append_nil, full]

end

/-! ### Aborts -/

section
variable {s : State} (e : LineError)

/-- What an abort leaves behind FWD's part: every block without the telegram, the error counted, the parser in SKIP. -/
def abandoned (u : State) : State :=
  let v := u.closeForward.dropPlan.dropCaptures.countError e
  { v with lrx.parser := .skip, lrx.gap := none }

theorem abortTelegram_passing (state : s.fwd.state = .passing ∨ s.fwd.state = .cut) :
    s.abortTelegram e = abandoned e { s with fwd.fifo := s.fwd.fifo.filter fun c => !c.wait } := by
  unfold State.abortTelegram State.abortForward
  rcases state with state | state <;> rw [state] <;> rfl

theorem abortTelegram_holding (state : s.fwd.state = .holding) : s.abortTelegram e = abandoned e s := by
  unfold State.abortTelegram State.abortForward
  rw [state]
  rfl

theorem abortTelegram_staging (state : s.fwd.state = .staging) :
    s.abortTelegram e = abandoned e (s.enterFifo s.fwd.stage) := by
  unfold State.abortTelegram State.abortForward
  rw [state]
  rfl

theorem fits_of_room {cs : List LineChar} (room : s.fwd.fifo.length + cs.length ≤ 128) : s.fits cs = true :=
  decide_eq_true room

theorem fits_of_full {cs : List LineChar} (full : 128 < s.fwd.fifo.length + cs.length) : s.fits cs = false :=
  decide_eq_false (Nat.not_le.mpr full)

/-- An abort leaves the blocks that make edges. -/
theorem abort_blocks (u : State) : (u.abortTelegram e).tb = u.tb ∧ (u.abortTelegram e).chn = u.chn ∧
    (u.abortTelegram e).out = u.out ∧ (u.abortTelegram e).tiu = u.tiu := by
  obtain ⟨-, chn, tb, out, tiu, -⟩ := u.abortTelegram_frame e
  exact ⟨tb, chn, out, tiu⟩

theorem enterFifo_unfit_counters {cs : List LineChar} (unfit : s.fits cs = false) :
    (s.enterFifo cs).lrx.counters = s.lrx.counters.set 5 (saturate16 s.lrx.counters[5]) := by
  unfold State.enterFifo
  dsimp only
  rw [unfit, if_neg (by decide)]
  rfl

/-- An OVERRUN counted before an abort for another error stands. -/
theorem abandoned_overruns (other : e ≠ .overrun) (u : State)
    (counted : u.lrx.counters = s.lrx.counters.set 5 (saturate16 s.lrx.counters[5])) :
    (abandoned e u).lrx.counters[5] = saturate16 s.lrx.counters[5] := by
  have apart : e.index.val ≠ 5 := by
    cases e with
    | overrun => exact absurd rfl other
    | _ => decide
  show (u.lrx.counters.set e.index (saturate16 u.lrx.counters[e.index]))[5] = _
  rw [Vector.getElem_set_ne _ _ apart, counted]
  exact Vector.getElem_set_self _

theorem gapExpired_iff {time started : Nat} (running : s.lrx.gap = some started) :
    s.gapExpired time = true ↔ started + 24 * bitClocks s.lrx.rate ≤ time := by
  rw [State.gapExpired, running, Option.any_some, decide_eq_true_iff]

end

section
variable {s : State} (notIdle : s.lrx.parser ≠ .idle) (notSkip : s.lrx.parser ≠ .skip)
include notIdle notSkip

/-- Inside a telegram the parser hands on to the place it stands at. -/
theorem parse_inside (c : LineChar) (good : Bool) : ∃ take, s.parse c good = s.inside c good take := by
  unfold State.parse
  split
  case h_1 parser => exact absurd parser notIdle
  case h_2 parser => exact absurd parser notSkip
  all_goals exact ⟨_, rfl⟩

theorem parse_framing (c : LineChar) : s.parse c false = s.abortTelegram .framing := by
  obtain ⟨take, parsed⟩ := parse_inside notIdle notSkip c false
  rw [parsed, State.inside, if_pos rfl]

theorem parse_truncated {c : LineChar} (marker : c.marker = true) :
    s.parse c true = (s.abortTelegram .truncated).beginTelegram c := by
  obtain ⟨take, parsed⟩ := parse_inside notIdle notSkip c true
  rw [parsed, State.inside, if_neg (by decide), if_pos marker]

end

end Sys2Proof.Machine.Characters

open Sys2Proof.Machine.Characters

/-- Settles O52: the parser's two resting places, and the entry of one character with room and without. -/
theorem charactersBetweenTelegrams : Obligations.CharactersBetweenTelegrams := by
  intro s data time high receiving good bad c
  refine ⟨fun between => ⟨?_, ?_, ?_⟩, fun idle room => ?_, fun idle full mark => ?_, fun skip => ?_, fun sound skip => ?_⟩
  · exact exec_character_of_parse high receiving (parse_header (s := good) between rfl) ⟨rfl, rfl, rfl, rfl⟩
  · exact exec_character_of_parse high receiving (parse_bad_header (s := bad) between rfl) ⟨rfl, rfl, rfl, rfl⟩
  · exact exec_character_of_parse high receiving (parse_bad_plain (s := bad) between rfl) ⟨rfl, rfl, rfl, rfl⟩
  · refine exec_character_of_parse high receiving ?_ ⟨rfl, rfl, rfl, rfl⟩
    exact (parse_idle (s := good) idle rfl).trans (State.enterFifo_fits good _ (fits_of_room room))
  · refine exec_character_of_parse high receiving ?_ ⟨rfl, rfl, rfl, rfl⟩
    refine (parse_idle (s := good) idle rfl).trans ((enterFifo_full (s := good) (List.cons_ne_nil _ _) full).trans ?_)
    show State.countError { good with fwd.highWater := max s.fwd.highWater 128 } .overrun = good.countError .overrun
    rw [mark, Nat.max_self, ← mark]
    rfl
  · exact exec_character_of_parse high receiving (parse_skip (s := good) skip rfl true) ⟨rfl, rfl, rfl, rfl⟩
  · exact ((Progress.telegramSound_resting (.inr skip)).mp sound).gap

/-- Settles O53: the abort by FWD's state, and each of the three events that reach it. -/
theorem abortsDropTheTelegram : Obligations.AbortsDropTheTelegram := by
  refine ⟨fun s e => ?_, fun s time started high running => ⟨fun expired => ?_, fun early => ?_⟩, fun s time stopped => ?_,
    fun s data marker time high receiving notIdle notSkip => ⟨?_, ?_⟩⟩
  · intro gone skipped
    refine ⟨fun state => abortTelegram_passing e state, fun state => abortTelegram_holding e state,
      fun state room => ?_, fun state full level other => ?_⟩
    · rw [abortTelegram_staging e state, State.enterFifo_fits s _ (fits_of_room room)]
      exact ⟨rfl, rfl, rfl, rfl, rfl⟩
    · have unfit := fits_of_full full
      rw [abortTelegram_staging e state]
      refine ⟨?_, rfl, rfl, ?_⟩
      · show (s.enterFifo s.fwd.stage).fwd.fifo = _
        rw [s.enterFifo_fwd]
        rfl
      · exact abandoned_overruns e other _ (enterFifo_unfit_counters unfit)
  · exact Forwarding.event_of_work _ s _ high (if_pos ((gapExpired_iff running).mpr expired)) (abort_blocks .gap s)
  · exact Forwarding.event_of_self _ s (if_neg fun expired => Nat.not_le.mpr early ((gapExpired_iff running).mp expired))
  · exact Forwarding.event_of_self _ s (if_neg (by rw [State.gapExpired, stopped]; exact Bool.false_ne_true))
  · exact exec_character_of_parse high receiving (parse_framing (s := s.afterStopBit false) notIdle notSkip _)
      (abort_blocks .framing (s.afterStopBit false))
  · exact exec_character_of_parse high receiving (parse_truncated (s := s.afterStopBit true) notIdle notSkip rfl)
      (abort_blocks .truncated (s.afterStopBit true))
end

section
/-! PROOFS. The header's first values: kinds and treatments (R4, R9), the sources a snapshot reads (R61, R62, R193), and what a
DATA telegram opens (R68, R153). -/

open Sys2Proof Sys2Proof.Machine

namespace Sys2Proof.Machine.Headers

/-! ### Kinds and treatments -/

theorem groupOf_eq (h0 : Byte) : groupOf h0 = BitVec.ofNat 8 (h0.toNat % 16) := by
  refine BitVec.eq_of_toNat_eq ?_
  have low : h0.toNat &&& 15 = h0.toNat % 16 := Nat.and_two_pow_sub_one_eq_mod h0.toNat 4
  have small : h0.toNat % 16 < 2 ^ 8 := Nat.lt_trans (Nat.mod_lt _ (by decide)) (by decide)
  rw [groupOf, BitVec.toNat_and, BitVec.toNat_ofNat, Nat.mod_eq_of_lt small, ← low]
  rfl

theorem lengthAccepted_eq (h0 : Byte) (len : Nat) : lengthAccepted (kindOf h0) len = match h0.toNat / 16 with
    | 1 => decide (1 ≤ len ∧ len ≤ 240)
    | 2 => decide (4 ≤ len ∧ len ≤ 64)
    | 3 => decide (len = 2)
    | _ => decide (len ≤ 240) := by
  unfold kindOf
  generalize h0.toNat / 16 = k
  match k with
  | 0 | 1 | 2 | 3 | _ + 4 => rfl

/-- The kinds by the upper nibble of H0 (R4). -/
theorem kindOf_eq (h0 : Byte) : kindOf h0 =
    if h0.toNat / 16 = 1 then .data else if h0.toNat / 16 = 2 then .mgmt else if h0.toNat / 16 = 3 then .assign else .foreign := by
  unfold kindOf
  generalize h0.toNat / 16 = k
  match k with
  | 0 | 1 | 2 | 3 => rfl
  | k + 4 => simp

theorem treatmentOf_eq (address h0 h1 : Byte) (len : Nat) : treatmentOf address h0 h1 len =
    if h0.toNat / 16 = 1 ∧ 1 ≤ len ∧ len ≤ 240 then .data
    else if h0.toNat / 16 = 2 ∧ 4 ≤ len ∧ len ≤ 64 ∧ h1 = address ∧ address ≠ 0 then .held
    else if h0.toNat / 16 = 2 ∧ 4 ≤ len ∧ len ≤ 64 ∧ h1 = 0x7F then .broadcast
    else if h0.toNat / 16 = 2 ∧ 4 ≤ len ∧ len ≤ 64 then .passed
    else if h0.toNat / 16 = 3 ∧ len = 2 then (if address = 0 then .held else .passed)
    else .foreign := by
  unfold treatmentOf
  rw [kindOf_eq]
  by_cases data : h0.toNat / 16 = 1
  · simp only [data, lengthAccepted]
    grind
  · by_cases mgmt : h0.toNat / 16 = 2
    · simp only [mgmt, lengthAccepted]
      grind
    · by_cases assign : h0.toNat / 16 = 3
      · simp only [assign, lengthAccepted]
        grind
      · simp only [data, mgmt, assign, lengthAccepted]
        grind

/-! ### Sources (R62, R193) -/

section
variable (s : State)

theorem sourceValue_duty (n : Fin 6) : s.sourceValue 1 n.val = s.chn[n].duty := by
  simp only [State.sourceValue, Vector.getElem?_eq_getElem n.isLt]
  rfl

theorem sourceValue_status (n : Fin 6) : s.sourceValue 2 n.val = s.chn[n].statusByte := by
  simp only [State.sourceValue, Vector.getElem?_eq_getElem n.isLt]
  rfl

theorem sourceValue_fill (n : Fin 6) : s.sourceValue 3 n.val = s.rings[n].slots.length := by
  simp only [State.sourceValue, Vector.getElem?_eq_getElem n.isLt]
  rfl

theorem sourceValue_load (k : Fin 2) : s.sourceValue 7 k.val = s.lch[k].state.code + 256 * s.lch[k].next := by
  simp only [State.sourceValue, Vector.getElem?_eq_getElem k.isLt]
  rfl

theorem sourceValue_counter (n : Fin 6) : s.sourceValue 8 n.val = s.lrx.counters[n] := by
  simp only [State.sourceValue, Vector.getElem?_eq_getElem n.isLt]
  rfl

theorem loadState_code (x : LoadState) : x.code = match x with
    | .idle => 0
    | .ready => 1
    | .active => 2
    | .waiting => 3
    | .complete => 4
    | .cancelled => 5
    | .terminated => 6 := by cases x <;> rfl

theorem statusByte_eq (c : Channel) : c.statusByte =
    (match c.state with | .disabled => 0 | .armed => 1 | .running => 2 | .fault => 3) +
    (if c.sticky.invalid then 4 else 0) + (if c.sticky.range then 8 else 0) +
    (if c.sticky.overrun then 16 else 0) + (if c.sticky.stale then 32 else 0) +
    (match c.code with | .below => 0 | .within => 64 | .above => 128 | .unordered => 192) := by
  obtain ⟨state, mask, ⟨invalid, range, overrun, stale⟩, cause, duty, code, saturated, deadTime⟩ := c
  rw [Channel.statusByte, Parameters.excSet_toNat]
  cases state <;> cases code <;> simp only [ChannelState.code, Code.code] <;> split <;> split <;> split <;> split <;> rfl

theorem levels_value (u : Tiu) : (BitVec.ofNat 32 u.levels).toNat < 256 ∧
    ∀ k : Fin 8, (BitVec.ofNat 32 u.levels).getLsbD k.val = u.inputs[k].level := by
  have small := Parameters.levels_lt u
  refine ⟨?_, fun k => ?_⟩
  · rw [BitVec.toNat_ofNat]
    exact Nat.lt_of_le_of_lt (Nat.mod_le _ _) small
  · have inside : k.val < 32 := Nat.lt_trans k.isLt (by decide)
    rw [← Parameters.levels_getLsbD, BitVec.getLsbD_ofNat, BitVec.getLsbD_ofNat, decide_eq_true inside, decide_eq_true k.isLt]

theorem enabledFlags_value : (BitVec.ofNat 32 s.enabledFlags.toNat).toNat < 8192 ∧
    ∀ i, i < 13 → (BitVec.ofNat 32 s.enabledFlags.toNat).getLsbD i = (s.mge.flags.getLsbD i && s.mge.mask.getLsbD i) := by
  refine ⟨?_, fun i small => ?_⟩
  · rw [BitVec.toNat_ofNat]
    exact Nat.lt_of_le_of_lt (Nat.mod_le _ _) s.enabledFlags.isLt
  · have inside : i < 32 := Nat.lt_trans small (by decide)
    rw [BitVec.getLsbD_ofNat, decide_eq_true inside, Bool.true_and, BitVec.testBit_toNat, State.enabledFlags,
      BitVec.getLsbD_and]

/-! ### Snapshots (R61) -/

theorem takeSnapshot_entries (plan : List PlanEntry) : (s.takeSnapshot plan).map (·.entry) =
    (plan.map (·.entry)).filter (·.direction = .produce) := by
  rw [State.takeSnapshot, List.map_map, List.filter_map]
  rfl

theorem value_of_mem {plan : List PlanEntry} {p : Produced} (listed : p ∈ s.takeSnapshot plan) :
    p.value = BitVec.ofNat 32 (s.sourceValue p.entry.target.toNat p.entry.source.toNat) := by
  obtain ⟨q, -, rfl⟩ := List.mem_map.mp listed
  rfl

/-- The value of a source of this code and index. -/
theorem value_of_source {plan : List PlanEntry} {p : Produced} (listed : p ∈ s.takeSnapshot plan) {target : Byte}
    (code : p.entry.target = target) {index : Nat} (source : p.entry.source.toNat = index) :
    p.value = BitVec.ofNat 32 (s.sourceValue target.toNat index) := by
  rw [value_of_mem s listed, code, source]

end

/-! ### Captures (R153) -/

theorem chunk_le_iff (d : Descriptor) (len : Nat) : d.offset + d.chunkLength ≤ len ↔
    d.offset + 1 + d.perChunk * (match d.target with | .map => 8 | .conversion => 16) ≤ len := by
  rw [Descriptor.chunkLength, ← Nat.add_assoc]
  cases d.target <;> rfl

section
variable {l : LoadChannel} {group : Byte} {len : Nat}

theorem openCapture_of_whole {d : Descriptor} (descriptor : l.descriptor = some d) (active : l.state = .active)
    (own : d.group = group) (whole : d.offset + d.chunkLength ≤ len) :
    l.openCapture group len = { l with capture := some [] } := by
  simp only [LoadChannel.openCapture, descriptor]
  exact if_pos ⟨active, own, whole⟩

theorem openCapture_of_other
    (other : ∀ d, l.descriptor = some d → ¬(l.state = .active ∧ d.group = group ∧ d.offset + d.chunkLength ≤ len)) :
    l.openCapture group len = l := by
  cases descriptor : l.descriptor with
  | none => simp only [LoadChannel.openCapture, descriptor]
  | some d =>
    simp only [LoadChannel.openCapture, descriptor]
    exact if_neg (other d descriptor)

end

end Sys2Proof.Machine.Headers
end

section
/-! PROOFS. The complete header (R8, R9, R13, R26), with room in the FIFO and without (R29). -/

open Sys2Proof Sys2Proof.Machine Sys2Proof.Machine.Receiver Sys2Proof.Machine.Characters

namespace Sys2Proof.Machine.Headers

/-! ### Snapshots of states alike -/

/-- The blocks that a source reads (R62). -/
structure SourcesAlike (s u : State) : Prop where
  chn : u.chn = s.chn
  rings : u.rings = s.rings
  lch : u.lch = s.lch
  tiu : u.tiu = s.tiu
  mge : u.mge = s.mge
  map : u.map = s.map
  counters : u.lrx.counters = s.lrx.counters

theorem takeSnapshot_congr {s u : State} (alike : SourcesAlike s u) (plan : List PlanEntry) :
    u.takeSnapshot plan = s.takeSnapshot plan := by
  obtain ⟨chn, rings, lch, tiu, mge, map, counters⟩ := alike
  have values (code index : Nat) : u.sourceValue code index = s.sourceValue code index := by
    unfold State.sourceValue State.enabledFlags
    rw [chn, rings, lch, tiu, mge, map, counters]
  unfold State.takeSnapshot
  simp only [values]

/-! ### The release of the header stage (R26, R29) -/

/-- Where characters of a telegram meet a full FIFO, those that find a place enter, FWD is in CUT, and OVERRUN is counted. -/
theorem passChars_full {s : State} {cs : List LineChar} (full : 128 < s.fwd.fifo.length + cs.length)
    (bounded : s.fwd.fifo.length ≤ 128) : s.passChars cs = { s.countError .overrun with fwd := { s.fwd with
      state := .cut
      fifo := s.fwd.fifo ++ cs.take (128 - s.fwd.fifo.length)
      highWater := max s.fwd.highWater 128 } } := by
  have unfit := fits_of_full full
  have level : (s.fwd.fifo ++ cs.take (128 - s.fwd.fifo.length)).length = 128 := by
    rw [List.length_append, List.length_take]
    omega
  unfold State.passChars State.enterFifo
  dsimp only
  rw [unfit, if_neg (by decide), if_neg (by decide), State.level, show Config.fifoCapacity = 128 from rfl, level]
  rfl

theorem passChars_room {s : State} {cs : List LineChar} (room : s.fwd.fifo.length + cs.length ≤ 128) :
    s.passChars cs = { s with fwd := { s.fwd with
      fifo := s.fwd.fifo ++ cs, highWater := max s.fwd.highWater (s.fwd.fifo.length + cs.length) } } :=
  have fit := fits_of_room room
  (State.passChars_fits s cs fit).trans (State.enterFifo_fits s cs fit)

theorem releaseHeader_passed {s : State} {t : Treatment} (passed : t ≠ .held) (chars : List LineChar) :
    s.releaseHeader t chars = State.passChars { s with fwd := { s.fwd with
      state := .passing, stage := [], acc := checkBytes s.fwd.acc (chars.map (·.data)) } } chars := by
  cases t with
  | held => exact absurd rfl passed
  | data | broadcast | passed | foreign => rfl

theorem accepted_of_data {address h0 h1 : Byte} {len : Nat} (data : treatmentOf address h0 h1 len = .data) :
    lengthAccepted (kindOf h0) len = true := by
  unfold treatmentOf at data
  split at data
  · exact nomatch data
  next accepted => exact (Bool.not_eq_false _).mp accepted

/-! ### H2 -/

/-- LENGTH is counted for a length the kind does not accept (R4, R8). -/
def measured (s : State) (h0 : Byte) (len : Nat) : State :=
  if lengthAccepted (kindOf h0) len then s else s.countError .length

/-- The third header character feeds the check and the gap timer like the others (R6, R15). -/
def fed (s : State) (acc : Half) (time : Nat) : State := { s with lrx := { s.lrx with acc := acc, gap := some time } }

/-- The parser behind the header. -/
def behind (s : State) (t : Telegram) : State :=
  { s with lrx := { s.lrx with parser := if t.len = 0 then .check t none else .payload t 0 } }

/-- What the telegram opens at its complete header, DATA or not. -/
def opened (before s : State) (t : Telegram) (chars : List LineChar) : State :=
  if t.treatment = .data then State.openData before s chars t.h0 t.h1 t.len else s

theorem takeHeader_h2 (s : State) (h0 h1 : Byte) (c : LineChar) :
    let t : Telegram := ⟨h0, h1, c.data.toNat, treatmentOf s.lrx.address h0 h1 c.data.toNat, []⟩
    let v := fed (measured s h0 t.len) (checkByte s.lrx.acc c.data) c.time
    s.takeHeader h0 (some h1) c =
      behind (opened v (v.releaseHeader t.treatment (s.fwd.stage ++ [c])) t (s.fwd.stage ++ [c])) t := by
  intro t v
  have fedFirst : (if lengthAccepted (kindOf h0) c.data.toNat then s.feedCheck c else (s.feedCheck c).countError .length) =
      v := by
    simp only [v, t, measured]
    split <;> rfl
  have stage : v.fwd.stage = s.fwd.stage := by
    simp only [v, measured]
    split <;> rfl
  simp only [State.takeHeader, State.completeHeader, fedFirst, stage]
  rfl

theorem parse_header {s : State} {h0 : Byte} {h1 : Option Byte} {c : LineChar} (parser : s.lrx.parser = .header h0 h1)
    (plain : c.marker = false) : s.parse c true = s.takeHeader h0 h1 c := by
  unfold State.parse
  rw [parser]
  simp only [State.inside, plain, Bool.true_eq_false, Bool.false_eq_true, if_false]

theorem openData_room {before s : State} {chars : List LineChar} (room : before.fits chars = true) (h0 h1 : Byte) (len : Nat) :
    State.openData before s chars h0 h1 len = (s.openPlan s (groupOf h0) h1 len).openCaptures (groupOf h0) len := by
  unfold State.openData
  rw [room]
  rfl

/-- Without room the free value picks the state that the snapshot sees (log 9). -/
theorem openData_full {before s : State} {chars : List LineChar} (full : before.fits chars = false) (h0 h1 : Byte) (len : Nat) :
    ∃ seen, (seen = before ∨ seen = s) ∧ State.openData before s chars h0 h1 len =
      (State.openPlan { s with free := s.free + 1 } seen (groupOf h0) h1 len).openCaptures (groupOf h0) len := by
  unfold State.openData
  rw [full]
  simp only [Bool.not_false, Bool.true_and, if_true]
  split
  · exact ⟨_, .inl rfl, rfl⟩
  · exact ⟨_, .inr rfl, rfl⟩

/-- What a DATA telegram does to MAP at its complete header, with the snapshot it takes (R58, R61, R68). -/
def planned (m : MapUnit) (plan : List PlanEntry) (snapshot : List Produced) (cycle : Byte) : MapUnit :=
  { m with
    plan := some plan
    snapshot := some snapshot
    holding := (plan.filter fun p => p.entry.direction = .consume).map (·.pendingWrite cycle) }

section
variable {s v : State} {t : Telegram} {chars : List LineChar} {f : Fwd}

theorem releaseHeader_room (fwd : v.fwd = f) {x : Treatment} (passed : x ≠ .held) (room : f.fifo.length + chars.length ≤ 128) :
    v.releaseHeader x chars = { v with fwd := { f with
      state := .passing
      stage := []
      acc := checkBytes f.acc (chars.map (·.data))
      fifo := f.fifo ++ chars
      highWater := max f.highWater (f.fifo.length + chars.length) } } := by
  subst fwd
  exact (releaseHeader_passed passed chars).trans (passChars_room room)

theorem releaseHeader_full (fwd : v.fwd = f) {x : Treatment} (passed : x ≠ .held) (full : 128 < f.fifo.length + chars.length)
    (bounded : f.fifo.length ≤ 128) : v.releaseHeader x chars = { v.countError .overrun with fwd := { f with
      state := .cut
      stage := []
      acc := checkBytes f.acc (chars.map (·.data))
      fifo := f.fifo ++ chars.take (128 - f.fifo.length)
      highWater := max f.highWater 128 } } := by
  subst fwd
  exact (releaseHeader_passed passed chars).trans (passChars_full full bounded)

theorem opened_data_room (alike : SourcesAlike s v) (data : t.treatment = .data) (room : v.fits chars = true) :
    opened v { v with fwd := f } t chars = { v with
      fwd := f
      map := planned s.map (s.map.buildPlan (groupOf t.h0) t.len)
        (s.takeSnapshot (s.map.buildPlan (groupOf t.h0) t.len)) t.h1
      lch := s.lch.map (·.openCapture (groupOf t.h0) t.len) } := by
  obtain ⟨chn, rings, lch, tiu, mge, map, counters⟩ := alike
  rw [opened, if_pos data, openData_room room, ← map, ← lch,
    ← takeSnapshot_congr (s := s) (u := { v with fwd := f }) ⟨chn, rings, lch, tiu, mge, map, counters⟩]
  rfl

/-- Without room the snapshot sees the counted OVERRUN or not, and a free value is used (log 9). -/
theorem opened_data_full (alike : SourcesAlike s v) (data : t.treatment = .data) (full : v.fits chars = false) :
    ∃ seen, (seen = s ∨ seen = s.countError .overrun) ∧
      opened v { v.countError .overrun with fwd := f } t chars = { v.countError .overrun with
        fwd := f
        map := planned s.map (s.map.buildPlan (groupOf t.h0) t.len)
          (seen.takeSnapshot (s.map.buildPlan (groupOf t.h0) t.len)) t.h1
        lch := s.lch.map (·.openCapture (groupOf t.h0) t.len)
        free := v.free + 1 } := by
  obtain ⟨chn, rings, lch, tiu, mge, map, counters⟩ := alike
  obtain ⟨seen, either, isOpened⟩ := openData_full (s := { v.countError .overrun with fwd := f }) full t.h0 t.h1 t.len
  rw [opened, if_pos data, isOpened]
  rcases either with rfl | rfl
  · refine ⟨s, .inl rfl, ?_⟩
    rw [← takeSnapshot_congr ⟨chn, rings, lch, tiu, mge, map, counters⟩, ← map, ← lch]
    rfl
  · refine ⟨s.countError .overrun, .inr rfl, ?_⟩
    have counted : SourcesAlike (s.countError .overrun) { v.countError .overrun with fwd := f } := by
      refine ⟨chn, rings, lch, tiu, ?_, map, ?_⟩
      · exact congrArg (fun m : Mge => { m with flags := m.flags ||| (1#13 <<< 11) }) mge
      · exact congrArg (fun x : Vector Nat 6 => x.set 5 (saturate16 x[5])) counters
    rw [← takeSnapshot_congr counted, ← map, ← lch]
    rfl

/-- A counted error sets LINE_ERROR (R20). -/
theorem countError_flag (u : State) (e : LineError) : (u.countError e).mge.flags.getLsbD 11 = true := by
  rw [State.countError_flags, BitVec.getLsbD_or, show (1#13 <<< 11).getLsbD 11 = true from by decide, Bool.or_true]

/-- LENGTH is another counter than OVERRUN (R19). -/
theorem measured_overruns (u : State) (h0 : Byte) (len : Nat) :
    (measured u h0 len).lrx.counters[5] = u.lrx.counters[5] := by
  unfold measured
  split
  · rfl
  · exact Vector.getElem_set_ne (i := 4) (j := 5) (by decide) (by decide) (by decide)

end

end Sys2Proof.Machine.Headers

open Sys2Proof.Machine.Headers

/-- Settles O54: H2 is the counted length, the released or held header stage, and what a DATA telegram opens. -/
theorem headerCompletionDecidesTheTreatment : Obligations.HeaderCompletionDecidesTheTreatment := by
  refine ⟨fun h0 len => ⟨groupOf_eq h0, ?_⟩, fun s plan => ⟨takeSnapshot_entries s plan, fun p listed => ?_⟩,
    fun p cycle => rfl, fun l group len => ⟨?_, ?_⟩, fun address h0 h1 len _ _ => treatmentOf_eq address h0 h1 len, ?_, ?_⟩
  · exact lengthAccepted_eq h0 len
  · have reads := fun {target : Byte} (code : p.entry.target = target) {index : Nat} (source : p.entry.source.toNat = index) =>
      value_of_source s listed code source
    refine ⟨fun code => reads code rfl, ?_, fun code => ?_, fun code => ?_, fun code => ?_, ?_,
      fun code => reads code rfl⟩
    · intro n source c
      refine ⟨fun code => ?_, fun code => ?_, fun code => ?_, fun code => ?_⟩
      · exact (reads code source).trans (congrArg (BitVec.ofNat 32) (sourceValue_duty s n))
      · have status := (sourceValue_status s n).trans (statusByte_eq s.chn[n])
        exact (reads code source).trans (congrArg (BitVec.ofNat 32) status)
      · exact (reads code source).trans (congrArg (BitVec.ofNat 32) (sourceValue_fill s n))
      · exact (reads code source).trans (congrArg (BitVec.ofNat 32) (sourceValue_counter s n))
    · rw [reads code rfl]
      exact levels_value s.tiu
    · exact (reads code rfl).trans (congrArg (BitVec.ofNat 32) (Parameters.status_eq s.tiu))
    · rw [reads code rfl]
      exact enabledFlags_value s
    · intro code k source
      have load := (sourceValue_load s k).trans (congrArg (· + 256 * s.lch[k].next) (loadState_code s.lch[k].state))
      exact (reads code source).trans (congrArg (BitVec.ofNat 32) load)
  · intro d descriptor active own whole
    refine openCapture_of_whole descriptor active own ((chunk_le_iff d len).mpr ?_)
    exact whole
  · intro other
    refine openCapture_of_other fun d descriptor whole => other d descriptor ?_
    exact ⟨whole.1, whole.2.1, (chunk_le_iff d len).mp whole.2.2⟩
  · intro s h0 data time high receiving parser g
    exact exec_character_of_parse high receiving (parse_header (h1 := none) parser rfl) ⟨rfl, rfl, rfl, rfl⟩
  · intro s h0 h1 data time high receiving parser len treatment t chars start g taken released
    let v := fed g (checkByte s.lrx.acc data) time
    have fwd : v.fwd = s.fwd := by
      simp only [v, g]
      split <;> rfl
    have blocks : g.tb = s.tb ∧ g.chn = s.chn ∧ g.out = s.out ∧ g.tiu = s.tiu := by
      simp only [g]
      split <;> exact ⟨rfl, rfl, rfl, rfl⟩
    have carried : g.map = s.map ∧ g.lch = s.lch ∧ g.free = s.free := by
      simp only [g]
      split <;> exact ⟨rfl, rfl, rfl⟩
    have alike (data : treatment = .data) : SourcesAlike s v := by
      rw [show v = fed start _ _ from congrArg (fed · _ _) (if_pos (accepted_of_data data))]
      exact ⟨rfl, rfl, rfl, rfl, rfl, rfl, rfl⟩
    have other (notData : treatment ≠ .data) (r : State) : opened v r t chars = r := if_neg notData
    have parsed : (s.afterStopBit true).parse ⟨data, false, time, false⟩ true =
        behind (opened v (v.releaseHeader treatment chars) t chars) t :=
      (parse_header (s := s.afterStopBit true) (c := ⟨data, false, time, false⟩) (h1 := some h1) parser rfl).trans
        (takeHeader_h2 (s.afterStopBit true) h0 h1 ⟨data, false, time, false⟩)
    have ends := fun {u : State} (work : behind (opened v (v.releaseHeader treatment chars) t chars) t = u) =>
      exec_character_of_parse high receiving (parsed.trans work)
    have dataPasses (data : treatment = .data) : treatment ≠ .held := by
      rw [data]
      decide
    refine ⟨fun held => ?_, fun notHeld notData room => ?_, fun data room => ?_, fun notHeld full bounded => ?_⟩
    · refine ends ?_ blocks
      have holding : v.releaseHeader treatment chars =
          { v with fwd := { v.fwd with state := .holding, stage := [], hold := chars } } := by
        rw [held]
        rfl
      rw [holding, fwd, other (by rw [held]; decide)]
      rfl
    · refine ends ?_ blocks
      rw [releaseHeader_room fwd notHeld room, other notData]
      rfl
    · refine ends ?_ blocks
      rw [releaseHeader_room fwd (dataPasses data) room, opened_data_room (alike data) data (fits_of_room (fwd ▸ room))]
      rfl
    · have cut := releaseHeader_full fwd notHeld full bounded
      have counted : saturate16 g.lrx.counters[5] = saturate16 s.lrx.counters[5] :=
        congrArg saturate16 (measured_overruns start h0 len)
      have overruns (w : State) : (w.countError .overrun).lrx.counters[5] = saturate16 w.lrx.counters[5] :=
        Vector.getElem_set_self _
      by_cases data : treatment = .data
      · obtain ⟨seen, either, isOpened⟩ := opened_data_full (t := t) (f := _) (alike data) data (fits_of_full (fwd ▸ full))
        have work := (congrArg (fun r => behind (opened v r t chars) t) cut).trans (congrArg (behind · t) isOpened)
        refine ⟨_, ends work blocks, rfl, (overruns v).trans counted,
          countError_flag v .overrun, fun notData => absurd data notData, fun _ => ⟨rfl, ?_, rfl⟩⟩
        rcases either with rfl | rfl
        · exact .inl rfl
        · exact .inr rfl
      · have work := (congrArg (fun r => behind (opened v r t chars) t) cut).trans (congrArg (behind · t) (other data _))
        exact ⟨_, ends work blocks, rfl, (overruns v).trans counted,
          countError_flag v .overrun, fun _ => carried, fun isData => absurd isData data⟩
end

section
/-! PROOFS. Payload characters (R10, R31, R32, R35, R69, R154). -/

open Sys2Proof Sys2Proof.Machine Sys2Proof.Machine.Receiver Sys2Proof.Machine.Characters Sys2Proof.Machine.Headers

namespace Sys2Proof.Machine.Payload

/-! ### Collecting (R69, R154) -/

theorem covers_iff (offset width : Byte) (pos : Nat) :
    covers offset width pos = true ↔ offset.toNat ≤ pos ∧ pos < offset.toNat + width.toNat := decide_eq_true_iff

theorem collect_eq (w : PendingWrite) (pos : Nat) (b : Byte) : w.collect pos b =
    if w.offset.toNat ≤ pos ∧ pos < w.offset.toNat + w.width.toNat then { w with raw := w.raw ++ [b] } else w :=
  if_congr (covers_iff w.offset w.width pos) rfl rfl

theorem lt_chunk_iff (d : Descriptor) (pos : Nat) : pos < d.offset + d.chunkLength ↔
    pos < d.offset + 1 + d.perChunk * (match d.target with | .map => 8 | .conversion => 16) := by
  rw [Descriptor.chunkLength, ← Nat.add_assoc]
  cases d.target <;> rfl

theorem captureByte_open {l : LoadChannel} {d : Descriptor} {c : List Byte} (descriptor : l.descriptor = some d)
    (capture : l.capture = some c) (pos : Nat) (b : Byte) : l.captureByte pos b =
      if d.offset ≤ pos ∧ pos < d.offset + d.chunkLength then { l with capture := some (c ++ [b]) } else l := by
  simp only [LoadChannel.captureByte, descriptor, capture]

theorem captureByte_closed {l : LoadChannel} (closed : l.capture = none) (pos : Nat) (b : Byte) : l.captureByte pos b = l := by
  unfold LoadChannel.captureByte
  rw [closed]
  cases l.descriptor <;> rfl

/-! ### Produced bytes (R31, R60, R63) -/

theorem producedAt_of_none {m : MapUnit} (none : m.snapshot = none) (pos : Nat) : m.producedAt pos = .none := by
  rw [MapUnit.producedAt, none]
  rfl

section
variable {m : MapUnit} {l : List Produced} (snapshot : m.snapshot = some l)
include snapshot

theorem producedAt_eq (pos : Nat) :
    m.producedAt pos = (l.find? fun p => covers p.entry.offset p.entry.width pos).map (·.byteAt pos) := by
  rw [MapUnit.producedAt, snapshot]
  rfl

theorem producedAt_none_iff (pos : Nat) : m.producedAt pos = none ↔
    ∀ p ∈ l, ¬(p.entry.offset.toNat ≤ pos ∧ pos < p.entry.offset.toNat + p.entry.width.toNat) := by
  simp only [producedAt_eq snapshot, Option.map_eq_none_iff, List.find?_eq_none, covers_iff]

theorem producedAt_some {pos : Nat} {b : Byte} (produced : m.producedAt pos = some b) : ∃ p ∈ l,
    p.entry.offset.toNat ≤ pos ∧ pos < p.entry.offset.toNat + p.entry.width.toNat ∧ b = p.byteAt pos := by
  rw [producedAt_eq snapshot, Option.map_eq_some_iff] at produced
  obtain ⟨p, found, byte⟩ := produced
  have covered : covers p.entry.offset p.entry.width pos = true := by
    have holds := List.find?_some found
    exact holds
  have ⟨low, high⟩ := (covers_iff _ _ _).mp covered
  exact ⟨p, List.mem_of_find?_eq_some found, low, high, byte.symm⟩

end

theorem byteAt_offset (p : Produced) (i : Nat) : p.byteAt (p.entry.offset.toNat + i) =
    p.value.extractLsb' (8 * (match p.entry.order with | .little => i | .big => p.entry.width.toNat - 1 - i)) 8 := by
  have place : p.entry.offset.toNat + i - p.entry.offset.toNat = i := Nat.add_sub_cancel_left _ _
  cases order : p.entry.order <;> simp only [Produced.byteAt, order, place]

/-! ### One character in FWD (R31, R32) -/

theorem passChars_one_full {s : State} {c : LineChar} (full : s.fwd.fifo.length = 128) : s.passChars [c] =
    { s.countError .overrun with fwd := { s.fwd with state := .cut, highWater := max s.fwd.highWater 128 } } := by
  have beyond : 128 < s.fwd.fifo.length + [c].length := by rw [full]; exact Nat.lt_succ_self 128
  rw [passChars_full beyond (Nat.le_of_eq full), full, Nat.sub_self, List.take_zero, List.append_nil]

/-- FWD with a character's byte fed to the outgoing check, and the changed mark of a produced one. -/
def accumulated (f : Fwd) (produced : Option Byte) (b : Byte) : Fwd :=
  { f with changed := f.changed || produced.isSome, acc := checkByte f.acc (produced.getD b) }

/-- The byte MAP supplies for a position of this telegram. -/
def supplied (s : State) (t : Telegram) (pos : Nat) : Option Byte :=
  if t.treatment = .data then s.map.producedAt pos else none

theorem substitute_eq (s : State) (t : Telegram) (pos : Nat) (c : LineChar) : s.substitute t pos c =
    State.passChars { s with fwd := accumulated s.fwd (supplied s t pos) c.data }
      [{ c with data := (supplied s t pos).getD c.data }] := by
  unfold State.substitute
  rw [show (if t.treatment = .data then s.map.producedAt pos else none) = supplied s t pos from rfl]
  cases supplied s t pos with
  | none => rw [accumulated, Option.isSome_none, Bool.or_false]; rfl
  | some b => rw [accumulated, Option.isSome_some, Bool.or_true]; rfl

theorem forwardPayload_passing {s : State} (state : s.fwd.state = .passing) (t : Telegram) (pos : Nat) (c : LineChar) :
    s.forwardPayload t pos c = s.substitute t pos c := by
  simp only [State.forwardPayload, state]

theorem forwardPayload_holding {s : State} (state : s.fwd.state = .holding) (t : Telegram) (pos : Nat) (c : LineChar) :
    s.forwardPayload t pos c = { s with fwd := { s.fwd with hold := s.fwd.hold ++ [c] } } := by
  simp only [State.forwardPayload, state]

theorem forwardPayload_cut {s : State} (state : s.fwd.state = .cut) (t : Telegram) (pos : Nat) (c : LineChar) :
    s.forwardPayload t pos c = s := by
  simp only [State.forwardPayload, state]

/-! ### One character in the other blocks (R10, R69, R154) -/

/-- The telegram with the byte of a broadcast payload kept for its execution (log 16). -/
def heardByte (t : Telegram) (b : Byte) : Telegram :=
  if t.treatment = .broadcast then { t with heard := t.heard ++ [b] } else t

theorem heardByte_len (t : Telegram) (b : Byte) : (heardByte t b).len = t.len := by
  unfold heardByte
  split <;> rfl

/-- MAP, LCH and the parser with a payload byte. -/
def collected (u : State) (t : Telegram) (pos : Nat) (b : Byte) : State :=
  { u with
    lrx := { u.lrx with
      parser := if pos + 1 < t.len then .payload (heardByte t b) (pos + 1) else .check (heardByte t b) none }
    map := { u.map with
      holding := if t.treatment = .data then u.map.holding.map (·.collect pos b) else u.map.holding }
    lch := if t.treatment = .data then u.lch.map (·.captureByte pos b) else u.lch }

theorem takePayload_eq (s : State) (t : Telegram) (pos : Nat) (c : LineChar) :
    s.takePayload t pos c = collected ((s.feedCheck c).forwardPayload t pos c) t pos c.data := by
  unfold State.takePayload
  dsimp only
  rw [show (if t.treatment = .broadcast then { t with heard := t.heard ++ [c.data] } else t) = heardByte t c.data from rfl,
    heardByte_len]
  unfold collected
  by_cases data : t.treatment = .data
  · rw [if_pos data, if_pos data, if_pos data]
    rfl
  · rw [if_neg data, if_neg data, if_neg data]

theorem parse_payload {s : State} {t : Telegram} {pos : Nat} {c : LineChar} (parser : s.lrx.parser = .payload t pos)
    (plain : c.marker = false) : s.parse c true = s.takePayload t pos c := by
  unfold State.parse
  rw [parser]
  simp only [State.inside, plain, Bool.true_eq_false, Bool.false_eq_true, if_false]

/-- A payload character, by what FWD does with it. -/
theorem exec_payload {s u : State} {t : Telegram} {pos : Nat} (high : s.released) (receiving : s.lrx.rx = .receiving true)
    (parser : s.lrx.parser = .payload t pos) (data : Byte) (time : Nat)
    (forwarded : ((s.afterStopBit true).feedCheck ⟨data, false, time, false⟩).forwardPayload t pos ⟨data, false, time, false⟩ = u)
    (blocks : u.tb = s.tb ∧ u.chn = s.chn ∧ u.out = s.out ∧ u.tiu = s.tiu) :
    exec (.characterReceived data false true time) s = .next (collected u t pos data) := by
  refine exec_character_of_parse high receiving (u := collected u t pos data) ?_ blocks
  rw [parse_payload (s := s.afterStopBit true) parser rfl, takePayload_eq, forwarded]

end Sys2Proof.Machine.Payload

open Sys2Proof.Machine.Payload

/-- Settles O55: FWD's state decides where the character goes; MAP and LCH take the inbound byte in each. -/
theorem payloadCharactersAreForwardedAndCollected : Obligations.PayloadCharactersAreForwardedAndCollected := by
  intro s t pos data time high receiving parser g heard taken produced out
  let c : LineChar := ⟨data, false, time, false⟩
  have ends := fun {u : State} => exec_payload (u := u) high receiving parser data time
  refine ⟨fun passing room => ?_, fun passing full => ?_, fun holding => ?_, fun cut => ?_, collect_eq,
    fun l place b => ⟨fun d c descriptor capture => ?_, fun closed => captureByte_closed closed place b⟩,
    fun m place => ⟨fun none => producedAt_of_none none place, fun l snapshot => ⟨producedAt_none_iff snapshot place,
      fun b => producedAt_some snapshot⟩⟩, fun p i _ => ?_⟩
  · have forwarded := (forwardPayload_passing (s := g.feedCheck c) passing t pos c).trans
      ((substitute_eq (g.feedCheck c) t pos c).trans (passChars_room (Nat.succ_le_of_lt room)))
    exact ends forwarded ⟨rfl, rfl, rfl, rfl⟩
  · have forwarded := (forwardPayload_passing (s := g.feedCheck c) passing t pos c).trans
      ((substitute_eq (g.feedCheck c) t pos c).trans (passChars_one_full full))
    exact ⟨_, ends forwarded ⟨rfl, rfl, rfl, rfl⟩, rfl, rfl, rfl, rfl, rfl, rfl⟩
  · exact ends (forwardPayload_holding (s := g.feedCheck c) holding t pos c) ⟨rfl, rfl, rfl, rfl⟩
  · exact ends (forwardPayload_cut (s := g.feedCheck c) cut t pos c) ⟨rfl, rfl, rfl, rfl⟩
  · exact (captureByte_open descriptor capture place b).trans
      (if_congr (and_congr_right' (lt_chunk_iff d place)) rfl rfl)
  · exact byteAt_offset p i
end

section
/-! PROOFS. What the blocks that hear the end of a telegram leave of LRX and FWD, and that no set attention flag is cleared by them
(R39, R70, R159, R171, R173). -/

open Sys2Proof Sys2Proof.Machine Sys2Proof.Machine.Timebases Sys2Proof.Machine.Steps

namespace Sys2Proof.Machine.Ends

/-! ### The flag of a faulting channel (R107) -/

section
variable {s v u : State} {n : Fin 6}

/-- Work in front that sets no flag and leaves the channel's state. -/
theorem flagsTheFault_after (flags : v.mge.flags = s.mge.flags) (state : v.chn[n].state = s.chn[n].state)
    (own : FlagsTheFault v u n) : FlagsTheFault s u n := by
  rw [FlagsTheFault, ← flags, ← state]
  exact own

theorem push_flags (slot : Slot) (other : s.chn[n].state ≠ .fault) : FlagsTheFault s (s.push n slot) n := by
  have raised : (s.raise n .overrun).chn[n].state = s.chn[n].state := by rw [(s.raise_get n .overrun).1]
  unfold State.push
  dsimp only
  split
  · exact flagsTheFault_of_keeps s _ n rfl id
  · split
    · exact flagsTheFault_of_keeps s _ n rfl id
    · split
      · exact flagsTheFault_of_keeps s _ n rfl fun fault => raised.symm.trans fault
      · exact flagsTheFault_of_enterFault s _ n .overrun rfl other

theorem flagged_flags (s : State) (n : Fin 6) (raised : Option Exc) :
    (Conversion.flagged s n raised).mge.flags = s.mge.flags ∧ (Conversion.flagged s n raised).chn[n].state = s.chn[n].state := by
  cases raised with
  | none => exact ⟨rfl, rfl⟩
  | some e => exact ⟨rfl, by rw [Conversion.flagged, (s.raise_get n e).1]⟩

theorem deliver_flags (r : Converted) (origin : SlotOrigin) (other : s.chn[n].state ≠ .fault) :
    FlagsTheFault s (s.deliver n r origin) n := by
  obtain ⟨flags, state⟩ := flagged_flags s n r.raised
  cases outcome : r.outcome with
  | slot tag duty =>
    rw [Conversion.deliver_slot s n r origin tag duty outcome]
    exact flagsTheFault_after flags state (push_flags _ (state ▸ other))
  | fault cause =>
    rw [Conversion.deliver_fault s n r origin cause outcome]
    exact flagsTheFault_of_enterFault s _ n cause flags other

theorem feed_flags (s : State) (n : Fin 6) (record : Option ConvRecord) (x : Option Int) (origin : SlotOrigin) :
    FlagsTheFault s (s.feed n record x origin) n := by
  by_cases takes : s.chn[n].state = .armed ∨ s.chn[n].state = .running
  · rw [Conversion.feed_of_taking s n record x origin takes]
    refine deliver_flags _ _ fun fault => ?_
    rw [fault] at takes
    rcases takes with takes | takes <;> exact nomatch takes
  · rw [show s.feed n record x origin = s from if_neg fun h => takes ((Conversion.takesPushes_iff _).mp h)]
    exact flagsTheFault_of_keeps s s n rfl id

/-- A faulting channel sets its flag and clears none. -/
theorem flagsTheFault_stays (own : FlagsTheFault s u n) {i : Nat} (set : s.mge.flags.getLsbD i = true) :
    u.mge.flags.getLsbD i = true := by
  rw [own]
  split
  · rw [BitVec.getLsbD_or, set, Bool.true_or]
  · exact set

theorem setFlag_stays (a : Attention) {i : Nat} (set : s.mge.flags.getLsbD i = true) :
    (s.setFlag a).mge.flags.getLsbD i = true := by
  rw [State.setFlag_flags, BitVec.getLsbD_or, set, Bool.true_or]

end

/-! ### Work that leaves LRX, FWD and the set flags -/

/-- LRX but for its address, FWD and the set flags are as they were. -/
structure EndWork (s u : State) : Prop where
  lrx : u.lrx = { s.lrx with address := u.lrx.address }
  fwd : u.fwd = s.fwd
  flags : ∀ i, s.mge.flags.getLsbD i = true → u.mge.flags.getLsbD i = true

section
variable {s u v : State}

theorem EndWork.refl (s : State) : EndWork s s := ⟨rfl, rfl, fun _ => id⟩

theorem EndWork.trans (h : EndWork s u) (k : EndWork u v) : EndWork s v := by
  obtain ⟨lrx, fwd, flags⟩ := h
  obtain ⟨lrx', fwd', flags'⟩ := k
  refine ⟨?_, fwd'.trans fwd, fun i set => flags' i (flags i set)⟩
  rw [lrx', lrx]

theorem EndWork.foldl {α : Type} (f : State → α → State) (step : ∀ s a, EndWork s (f s a)) (l : List α) (s : State) :
    EndWork s (l.foldl f s) := by
  induction l generalizing s with
  | nil => exact .refl s
  | cons a l ih => exact (step s a).trans (ih (f s a))

theorem EndWork.of_same (lrx : u.lrx = s.lrx) (fwd : u.fwd = s.fwd) (flags : u.mge.flags = s.mge.flags) : EndWork s u :=
  ⟨by rw [lrx], fwd, fun i set => by rw [flags]; exact set⟩

theorem EndWork.guarded {p : Prop} [Decidable p] (work : EndWork s u) : EndWork s (if p then u else s) := by
  split
  · exact work
  · exact .refl s

theorem setFlag_end (s : State) (a : Attention) : EndWork s (s.setFlag a) := ⟨rfl, rfl, fun _ => setFlag_stays a⟩

/-- Work on one channel that flags its fault. -/
theorem channelWork_end {n : Fin 6} (work : ChannelWork s u n) (own : FlagsTheFault s u n) : EndWork s u := by
  obtain ⟨lrx, fwd, -⟩ := work.blocks
  exact ⟨by rw [lrx], fwd, fun _ => flagsTheFault_stays own⟩

/-! ### The operations of broadcast commands -/

theorem reportCommit_end (s : State) (o : Origin) (failed : Bool) (r : CommitReport) : EndWork s (s.reportCommit o failed r) := by
  have reported : EndWork s { s with map := { s.map with report := r } } := .of_same rfl rfl rfl
  unfold State.reportCommit
  dsimp only
  split
  · exact reported.trans (setFlag_end _ .commitFailed)
  · exact reported

theorem commit_end : Keeps EndWork commit := by
  intro o s
  unfold commit
  split
  · exact reportCommit_end s o _ _
  · split
    · exact reportCommit_end s o _ _
    · have swapped : EndWork s { s with map := s.map.swap } := .of_same rfl rfl rfl
      exact swapped.trans (reportCommit_end { s with map := s.map.swap } o false (.done o))

theorem boundary_end (s : State) (t : Fin 2) : EndWork s (s.boundary t) := by
  have counted : EndWork s (s.setTimebase t { s.tb[t] with period := s.tb[t].staged, counter := 0 }) := .of_same rfl rfl rfl
  refine counted.trans (EndWork.foldl _ (fun u n => ?_) _ _)
  exact channelWork_end (u.channelBoundary_work _ n) (channelBoundary_flags u n _)

theorem startTimebase_end (s : State) (t : Fin 2) : EndWork s (s.startTimebase t) := by
  have started : EndWork s (s.setTimebase t { s.tb[t] with state := .running, counter := 0 }) := .of_same rfl rfl rfl
  exact (started.trans (boundary_end _ t)).trans (EndWork.foldl State.restartAges (fun _ _ => .of_same rfl rfl rfl) _ _)

theorem channelControl_end (refusal : Channel → Option Result) (act : State → Fin 6 → State)
    (step : ∀ s n, EndWork s (act s n)) (set : Byte) : Keeps EndWork (channelControl refusal act set) := by
  intro o s
  rcases channelControl_cases refusal act set o s with same | ⟨done, -⟩
  · rw [same]
    exact .refl s
  · rw [done]
    exact .foldl act step _ s

theorem disable_end (s : State) (n : Fin 6) : EndWork s (s.disable n) := by
  unfold State.disable
  split
  · exact .refl s
  · exact .of_same rfl rfl rfl

theorem channelAction_end (set action : Byte) : Keeps EndWork (channelAction set action) := by
  unfold channelAction
  split
  · exact channelControl_end _ State.arm (fun _ _ => .of_same rfl rfl rfl) set
  · exact channelControl_end _ State.disable disable_end set
  · exact channelControl_end _ State.arm (fun _ _ => .of_same rfl rfl rfl) set
  · exact channelControl_end _ State.clearSticky (fun _ _ => .of_same rfl rfl rfl) set
  · exact fun _ => .refl

theorem startTimebases_end (set : Byte) : Keeps EndWork (startTimebases set) := by
  intro o s
  unfold startTimebases
  split
  · exact .refl s
  · split
    · exact .refl s
    · exact .foldl State.startTimebase startTimebase_end _ s

theorem stopTimebases_end (set : Byte) : Keeps EndWork (stopTimebases set) := by
  intro o s
  unfold stopTimebases
  split
  · exact .refl s
  · exact .foldl State.stopTimebase (fun _ _ => .of_same rfl rfl rfl) _ s

theorem timebaseAction_end (set action : Byte) : Keeps EndWork (timebaseAction set action) := by
  unfold timebaseAction
  split
  · exact startTimebases_end set
  · exact stopTimebases_end set
  · exact fun _ => .refl

theorem forceTrip_end : Keeps EndWork forceTrip := by
  intro o s
  have latched : EndWork s { s with tiu := { s.tiu with latch := true } } := .of_same rfl rfl rfl
  exact latched.trans (setFlag_end _ .trip)

theorem clearTrip_end : Keeps EndWork clearTrip := by
  intro o s
  have unlatched : EndWork s { s with tiu := { s.tiu with latch := false } } := .of_same rfl rfl rfl
  have released (u : State) (n : Fin 6) : EndWork u (if s.tripForced n then u.endForcing n else u) :=
    .guarded (.of_same rfl rfl rfl)
  unfold clearTrip
  split
  · exact .refl s
  · exact unlatched.trans (.foldl _ released allChannels _)

theorem tripAction_end (action : Byte) : Keeps EndWork (tripAction action) := by
  unfold tripAction
  split
  · exact forceTrip_end
  · exact clearTrip_end
  · exact fun _ => .refl

theorem releaseAddress_end : Keeps EndWork releaseAddress := fun _ _ => ⟨rfl, rfl, fun _ => id⟩

theorem restart_end : Keeps EndWork restart := by
  intro o s
  unfold restart doneWith
  dsimp only
  exact .guarded (.of_same rfl rfl rfl)

/-- The broadcast column of R169 holds six commands, and none clears a flag or moves LRX or FWD. -/
theorem executeBroadcast_end (payload : List Byte) (s : State) : EndWork s (executeBroadcast payload s) := by
  by_cases permitted : ∃ a r, commandShape (byteAt payload 0).toNat = some (a, r, true)
  case neg =>
    rw [Broadcast.executeBroadcast_unpermitted payload s fun a r shape => permitted ⟨a, r, shape⟩]
    exact .refl s
  obtain ⟨a, r, shape⟩ := permitted
  by_cases long : a ≤ payload.length - 3
  case neg =>
    rw [Broadcast.executeBroadcast_short payload s a r shape long]
    exact .refl s
  rw [Broadcast.executeBroadcast_permitted payload s a r shape long]
  rcases Broadcast.commandShape_permitted _ a r shape with code | code | code | code | code | code <;> rw [code]
  · exact commit_end .broadcast s
  · exact channelAction_end _ _ .broadcast s
  · exact timebaseAction_end _ _ .broadcast s
  · exact tripAction_end _ .broadcast s
  · exact releaseAddress_end .broadcast s
  · exact restart_end .broadcast s

/-! ### The end of a DATA telegram -/

theorem processWrite_end (s : State) (w : PendingWrite) : EndWork s (s.processWrite w) := by
  unfold State.processWrite
  split
  · exact channelWork_end (s.feed_work _ _ _ _) (feed_flags s _ _ _ _)
  · exact .refl s

theorem processHolding_end (s : State) (cycle : Byte) : EndWork s (s.processHolding cycle) := by
  have fed : EndWork s (s.map.holding.foldl State.processWrite s) := .foldl _ processWrite_end _ s
  unfold State.processHolding
  dsimp only
  split <;> exact fed.trans (.of_same rfl rfl rfl)

theorem loadFlags_end (before s : State) (k : Fin 2) : EndWork s (State.loadFlags before s k) := by
  unfold State.loadFlags
  dsimp only
  refine EndWork.trans (u := if loadEntered before s k .complete = true then s.setFlag (.loadComplete k) else s) ?_ ?_
  · exact .guarded (setFlag_end s _)
  · exact .guarded (setFlag_end _ _)

theorem judge_flags (s : State) (k : Fin 2) : (s.judge k).mge = s.mge := by
  unfold State.judge
  dsimp only
  split
  · split
    · rfl
    · split <;> rfl
  · rfl

theorem judge_end (s : State) (k : Fin 2) : EndWork s (s.judge k) := by
  obtain ⟨-, -, ⟨lrx, fwd, -⟩, -⟩ := s.judge_work k
  exact .of_same lrx fwd (congrArg Mge.flags (judge_flags s k))

theorem chain_mge (before s : State) : (State.chain before s).mge = s.mge := by
  unfold State.chain State.cancelWaiting
  split
  · split <;> rfl
  · split
    · split <;> rfl
    · rfl

theorem chain_end (before s : State) : EndWork s (State.chain before s) := by
  obtain ⟨-, -, ⟨lrx, fwd, -⟩, -⟩ := State.chain_work before s
  exact .of_same lrx fwd (congrArg Mge.flags (chain_mge before s))

theorem loadsAtEnd_end (s : State) : EndWork s s.loadsAtEnd := by
  have chained : EndWork s (State.chain s (State.loadFlags s (State.loadFlags s ((s.judge 0).judge 1) 0) 1)) :=
    (((judge_end s 0).trans (judge_end _ 1)).trans ((loadFlags_end s _ 0).trans (loadFlags_end s _ 1))).trans (chain_end s _)
  unfold State.loadsAtEnd
  dsimp only
  split
  · exact (chained.trans (commit_end .auto _)).trans (.of_same rfl rfl rfl)
  · exact chained.trans (.of_same rfl rfl rfl)

theorem endData_end (s : State) (cycle : Byte) (good : Bool) : EndWork s (s.endData cycle good) := by
  unfold State.endData
  split
  · exact (processHolding_end s cycle).trans (loadsAtEnd_end _)
  · exact .of_same rfl rfl rfl

theorem fixRestartPoint_end (s : State) : EndWork s s.fixRestartPoint := by
  unfold State.fixRestartPoint
  exact .guarded (.of_same rfl rfl rfl)

/-- What the blocks behind FWD do at the end of a telegram. -/
theorem endTelegram_end (s : State) (t : Telegram) (good : Bool) (first : Byte) (c : LineChar) :
    EndWork (s.endForward t good first c) (s.endTelegram t good first c) := by
  unfold State.endTelegram
  dsimp only
  split
  · exact endData_end _ _ _
  · exact .guarded ((executeBroadcast_end _ _).trans (fixRestartPoint_end _))
  all_goals exact .refl _

end

end Sys2Proof.Machine.Ends
end

section
/-! PROOFS. The check characters and the end of a telegram in PASSING and in CUT (R11, R29, R33). -/

open Sys2Proof Sys2Proof.Machine Sys2Proof.Machine.Receiver Sys2Proof.Machine.Headers Sys2Proof.Machine.Payload
  Sys2Proof.Machine.Broadcast Sys2Proof.Machine.Ends

namespace Sys2Proof.Machine.Checks

/-! ### Check character 1 (R11, R28) -/

/-- LRX behind check character 1. -/
def awaiting (s : State) (t : Telegram) (c : LineChar) : State :=
  { s with lrx := { s.lrx with parser := .check t (some c.data), gap := some c.time } }

section
variable {s : State} (t : Telegram) (c : LineChar)

theorem takeCheck1_passing (state : s.fwd.state = .passing) :
    s.takeCheck1 t c = (awaiting s t c).passChars [{ c with wait := true }] := by
  simp only [State.takeCheck1, state]
  rfl

theorem takeCheck1_holding (state : s.fwd.state = .holding) :
    s.takeCheck1 t c = { awaiting s t c with fwd := { s.fwd with hold := s.fwd.hold ++ [c] } } := by
  simp only [State.takeCheck1, state]
  rfl

theorem takeCheck1_cut (state : s.fwd.state = .cut) : s.takeCheck1 t c = awaiting s t c := by
  simp only [State.takeCheck1, state]
  rfl

end

theorem exec_check1 {s u : State} {t : Telegram} (high : s.released) (receiving : s.lrx.rx = .receiving true)
    (parser : s.lrx.parser = .check t none) {data : Byte} {time : Nat}
    (taken : (s.afterStopBit true).takeCheck1 t ⟨data, false, time, false⟩ = u)
    (blocks : u.tb = s.tb ∧ u.chn = s.chn ∧ u.out = s.out ∧ u.tiu = s.tiu) :
    exec (.characterReceived data false true time) s = .next u := by
  refine exec_character_of_parse high receiving (Eq.trans ?_ taken) blocks
  unfold State.parse
  rw [show (s.afterStopBit true).lrx.parser = .check t none from parser]
  rfl

/-! ### Check character 2 (R6, R11, R33) -/

/-- CRC is counted at a bad end (R6, R19). -/
def checked (s : State) (good : Prop) [Decidable good] : State := if good then s else s.countError .crc

theorem takeCheck2_eq (s : State) (t : Telegram) (first : Byte) (c : LineChar) (good : Prop) [Decidable good]
    (decided : good ↔ CheckGood s first c.data) :
    s.takeCheck2 t first c = (parsed (checked s good)).endTelegram t (decide good) first c := by
  have same : (decide (first = highByte s.lrx.acc) && decide (c.data = lowByte s.lrx.acc)) = decide good := by
    rw [Bool.eq_iff_iff, Bool.and_eq_true, decide_eq_true_eq, decide_eq_true_eq, decide_eq_true_eq, decided]
    rfl
  unfold State.takeCheck2 checked
  dsimp only
  rw [same]
  by_cases h : good
  · rw [if_pos h, decide_eq_true h]
    rfl
  · rw [if_neg h, decide_eq_false h]
    rfl

/-- FWD's end of a telegram in PASSING or CUT: OVERRUN is counted when check character 2 meets a full FIFO, and nothing else changes
but FWD (R29, R33). -/
structure ForwardEnd (s u : State) (choice : Byte × Byte) (c : LineChar) : Prop where
  counted : u = { (if s.fwd.state = .passing ∧ s.fwd.fifo.length = 128 then s.countError .overrun else s) with fwd := u.fwd }
  room : s.fwd.state = .passing → s.fwd.fifo.length < 128 → u.fwd = { closed s.fwd with
    fifo := releaseWaiting choice.1 s.fwd.fifo ++ [{ c with data := choice.2 }]
    highWater := max s.fwd.highWater (s.fwd.fifo.length + 1) }
  full : s.fwd.state = .passing → s.fwd.fifo.length = 128 → u.fwd = { closed s.fwd with
    fifo := releaseWaiting choice.1 s.fwd.fifo
    highWater := max s.fwd.highWater 128 }
  cut : s.fwd.state = .cut → u.fwd = closed s.fwd

theorem endForward_end {s : State} (forwarding : s.fwd.state = .passing ∨ s.fwd.state = .cut)
    (bounded : s.fwd.fifo.length ≤ 128) (t : Telegram) (good : Bool) (first : Byte) (c : LineChar) :
    ForwardEnd s (s.endForward t good first c) (s.fwd.checkChoice good first c.data) c := by
  rcases forwarding with passing | cut
  · rw [endForward_passing s t good first c passing]
    have notCut : s.fwd.state ≠ .cut := by rw [passing]; decide
    rcases Nat.lt_or_eq_of_le bounded with room | full
    · rw [endPassing_of_room s good first c room]
      refine ⟨?_, fun _ _ => rfl, fun _ full => absurd full (Nat.ne_of_lt room), fun cut => absurd cut notCut⟩
      rw [if_neg fun h => Nat.ne_of_lt room h.2]
    · rw [endPassing_of_full s good first c full]
      refine ⟨?_, fun _ room => absurd full (Nat.ne_of_lt room), fun _ _ => rfl, fun cut => absurd cut notCut⟩
      rw [if_pos ⟨passing, full⟩]
  · rw [endForward_cut s t good first c cut]
    have notPassing : s.fwd.state ≠ .passing := by rw [cut]; decide
    refine ⟨?_, fun passing => absurd passing notPassing, fun passing => absurd passing notPassing, fun _ => rfl⟩
    rw [if_neg fun h => notPassing h.1]
    rfl

/-- Where no block but FWD hears the end, the end is FWD's (R39). -/
theorem endTelegram_other {s : State} {t : Telegram} (other : t.treatment = .passed ∨ t.treatment = .foreign) (good : Bool)
    (first : Byte) (c : LineChar) : s.endTelegram t good first c = s.endForward t good first c := by
  unfold State.endTelegram
  rcases other with treatment | treatment <;> rw [treatment]

end Sys2Proof.Machine.Checks

open Sys2Proof.Machine.Checks

/-- Settles O56: FWD ends by its state and its room; the blocks that hear the end leave FWD, the counters and the flag. -/
theorem passingTelegramEndsWithItsCheck : Obligations.PassingTelegramEndsWithItsCheck := by
  constructor
  · intro s t data time high receiving parser g taken
    let c : LineChar := ⟨data, false, time, false⟩
    have ends := fun {u : State} => exec_check1 (u := u) (data := data) (time := time) high receiving parser
    refine ⟨fun passing room => ?_, fun passing full => ?_, fun holding => ?_, fun cut => ?_⟩
    · exact ends ((takeCheck1_passing (s := g) t c passing).trans (passChars_room (Nat.succ_le_of_lt room))) ⟨rfl, rfl, rfl, rfl⟩
    · exact ends ((takeCheck1_passing (s := g) t c passing).trans (passChars_one_full full)) ⟨rfl, rfl, rfl, rfl⟩
    · exact ends (takeCheck1_holding (s := g) t c holding) ⟨rfl, rfl, rfl, rfl⟩
    · exact ends (takeCheck1_cut (s := g) t c cut) ⟨rfl, rfl, rfl, rfl⟩
  · intro s t first data time high receiving parser forwarding bounded good sent released closed overran g checked counted
    let c : LineChar := ⟨data, false, time, false⟩
    let v := parsed checked
    have fwd : v.fwd = s.fwd := by
      simp only [v, checked]
      split <;> rfl
    have blocks : v.tb = s.tb ∧ v.chn = s.chn ∧ v.out = s.out ∧ v.tiu = s.tiu := by
      simp only [v, checked]
      split <;> exact ⟨rfl, rfl, rfl, rfl⟩
    have choice : v.fwd.checkChoice (decide good) first data = sent := by
      rw [fwd]
      exact checkChoice_eq s.fwd first data good
    obtain ⟨isCounted, room, full, cut⟩ := endForward_end (s := v) (fwd ▸ forwarding) (fwd ▸ bounded) t (decide good) first c
    rw [show v.fwd.checkChoice (decide good) first c.data = sent from choice, fwd] at room full
    rw [fwd] at isCounted cut
    have heard := endTelegram_end v t (decide good) first c
    let r := v.endForward t (decide good) first c
    have flagged : r = { (if overran then v.countError .overrun else v) with fwd := r.fwd } := isCounted
    have work : r = { counted with lrx := { counted.lrx with parser := .idle, gap := none }, fwd := r.fwd } := by
      by_cases h : overran
      · rw [show counted = checked.countError .overrun from if_pos h]
        rwa [if_pos h] at flagged
      · rw [show counted = checked from if_neg h]
        rwa [if_neg h] at flagged
    have lrx : r.lrx = { counted.lrx with parser := .idle, gap := none } := by rw [work]
    let u := settleEdges s (v.endTelegram t (decide good) first c)
    have ran : exec (.characterReceived data false true time) s = .next u := by
      rw [exec_check2 s t first data time high receiving parser, takeCheck2_eq g t first c good Iff.rfl]
      rfl
    have lrx' : u.lrx = { r.lrx with address := u.lrx.address } := heard.lrx
    have fwd' : u.fwd = r.fwd := heard.fwd
    have counters : u.lrx.counters = counted.lrx.counters := by rw [lrx', lrx]
    refine ⟨u, ran, fun passing some_room => ?_, fun passing noRoom => ⟨?_, ?_⟩, fun isCut => ?_, ?_, ?_, counters, ?_,
      fun other => ?_⟩
    · rw [fwd', room passing some_room]
      rfl
    · rw [fwd', full passing noRoom]
      rfl
    · refine heard.flags 11 ?_
      show r.mge.flags.getLsbD 11 = true
      rw [flagged, if_pos ⟨passing, noRoom⟩]
      exact countError_flag v .overrun
    · rw [fwd', cut isCut]
      rfl
    · rw [lrx', lrx]
    · rw [lrx', lrx]
    · intro isGood notOverran
      rw [counters, show counted = checked from if_neg notOverran, show checked = g from if_pos isGood]
      rfl
    · obtain ⟨-, -, chn, tb, out, tiu, -⟩ := (endForward_work v t (decide good) first c (fwd ▸ forwarding)).blocks
      obtain ⟨tb', chn', out', tiu'⟩ := blocks
      have same : u = r := by
        rw [show u = settleEdges s r from congrArg (settleEdges s) (endTelegram_other other _ _ _)]
        exact settleEdges_of_blocks s r (tb.trans tb') (chn.trans chn') (out.trans out') (tiu.trans tiu')
      rw [same]
      exact work
end

section
/-! PROOFS. The end of a held telegram (R36 to R38, R23, R40). -/

open Sys2Proof Sys2Proof.Machine Sys2Proof.Machine.Receiver Sys2Proof.Machine.Characters Sys2Proof.Machine.Headers
  Sys2Proof.Machine.Broadcast Sys2Proof.Machine.Forwarding Sys2Proof.Machine.Checks

namespace Sys2Proof.Machine.Held

/-! ### What is written where (R37) -/

theorem overwrite_cons (i : Nat) (bs : List Byte) (c : LineChar) (cs : List LineChar) :
    overwrite (i + 1) bs (c :: cs) = c :: overwrite i bs cs := by
  induction bs generalizing i cs with
  | nil => rfl
  | cons b bs ih => simp only [overwrite, List.modify_succ_cons, ih]

theorem overwrite_append (bs : List Byte) (cs ds : List LineChar) :
    overwrite cs.length bs (cs ++ ds) = cs ++ overwrite 0 bs ds := by
  induction cs with
  | nil => rfl
  | cons c cs ih => rw [List.length_cons, List.cons_append, overwrite_cons, ih, List.cons_append]

theorem regenerate_append (cs : List LineChar) (a b : LineChar) : regenerate (cs ++ [a, b]) =
    cs ++ [{ a with data := (checkBytes 0xFFFF (cs.map (·.data))).extractLsb' 8 8 },
      { b with data := (checkBytes 0xFFFF (cs.map (·.data))).extractLsb' 0 8 }] := by
  have body : (cs ++ [a, b]).length - 2 = cs.length := by rw [List.length_append]; rfl
  unfold regenerate
  dsimp only
  rw [body, List.take_left, overwrite_append]
  rfl

theorem overwrite_get (first : Nat) (bs : List Byte) (cs : List LineChar) {i : Nat} {c : LineChar} (at_i : cs[i]? = some c) :
    (overwrite first bs cs)[i]? =
      some (if first ≤ i then { c with data := (bs[i - first]?).getD c.data } else c) := by
  induction bs generalizing first cs c with
  | nil =>
    rw [overwrite, at_i, List.getElem?_nil, Option.getD_none, ite_self]
  | cons b bs ih =>
    rw [overwrite]
    rcases Nat.lt_trichotomy i first with before | rfl | behind
    · rw [ih (first + 1) (cs.modify first _) (c := c), if_neg (by omega), if_neg (by omega)]
      rw [List.getElem?_modify_ne _ _ (by omega), at_i]
    · rw [ih (i + 1) (cs.modify i _) (c := { c with data := b }), if_neg (by omega), if_pos (Nat.le_refl i), Nat.sub_self]
      · rfl
      · rw [List.getElem?_modify_eq, at_i]
        rfl
    · have next : i - first = i - (first + 1) + 1 := by omega
      rw [ih (first + 1) (cs.modify first _) (c := c), if_pos (by omega), if_pos (by omega), next, List.getElem?_cons_succ]
      rw [List.getElem?_modify_ne _ _ (by omega), at_i]

theorem payloadOf_whole (h0 h1 h2 c1 c2 : LineChar) (cs : List LineChar) :
    payloadOf ([h0, h1, h2] ++ cs ++ [c1, c2]) = cs.map (·.data) := by
  have body : ([h0, h1, h2] ++ cs ++ [c1, c2]).length - 5 = cs.length := by
    simp only [List.length_append, List.length_cons, List.length_nil]
    omega
  unfold payloadOf
  rw [body]
  show ((cs ++ [c1, c2]).take cs.length).map (·.data) = cs.map (·.data)
  rw [List.take_left]

/-! ### The three ends (R36, R37, R38) -/

section
variable {s : State} (t : Telegram)

theorem endHeld_unfit (full : 128 < s.fwd.fifo.length + s.fwd.hold.length) (good : Bool) :
    s.endHeld t good = { s.countError .overrun with fwd := closed s.fwd } := by
  rw [State.endHeld, if_pos (fits_of_full full)]
  rfl

/-- FWD closed with a telegram appended (R38). -/
def appended (f : Fwd) (cs : List LineChar) : Fwd :=
  { closed f with fifo := f.fifo ++ cs, highWater := max f.highWater (f.fifo.length + cs.length) }

theorem append_closed {cs : List LineChar} (room : s.fwd.fifo.length + cs.length ≤ 128) :
    (s.enterFifo cs).closeForward = { s with fwd := appended s.fwd cs } := by
  rw [State.enterFifo_fits s cs (fits_of_room room)]
  rfl

theorem append_fixed {cs : List LineChar} {f : Fwd} (fwd : s.fwd = f) (room : f.fifo.length + cs.length ≤ 128)
    (fixed : s.mge.restart ≠ some .carrier) :
    (s.enterFifo cs).closeForward.fixRestartPoint = { s with fwd := appended f cs } := by
  subst fwd
  rw [append_closed room]
  exact fixRestartPoint_of_ne _ fixed

variable (room : s.fwd.fifo.length + s.fwd.hold.length ≤ 128)
include room

theorem endHeld_bad : s.endHeld t false = { s with fwd := appended s.fwd s.fwd.hold } := by
  have fit : ¬s.fits s.fwd.hold = false := by
    rw [fits_of_room room]
    decide
  rw [State.endHeld, if_neg fit, if_neg (by decide), append_closed room]

theorem endHeld_good : s.endHeld t true =
    ((s.executeTelegram t).1.enterFifo (s.executeTelegram t).2).closeForward.fixRestartPoint := by
  have fit : ¬s.fits s.fwd.hold = false := by
    rw [fits_of_room room]
    decide
  rw [State.endHeld, if_neg fit, if_pos rfl]

end

/-! ### Execution (R23, R37) -/

section
variable {s : State} {t : Telegram}

theorem executeTelegram_assign (kind : kindOf t.h0 = .assign) : s.executeTelegram t =
    (s.takeOffer (byteAt (payloadOf s.fwd.hold) 0) (byteAt (payloadOf s.fwd.hold) 1),
      if s.offerTaken (byteAt (payloadOf s.fwd.hold) 0) (byteAt (payloadOf s.fwd.hold) 1) then
        regenerate (overwrite 3 [1] s.fwd.hold) else s.fwd.hold) := by
  rw [State.executeTelegram]
  exact if_pos kind

theorem executeTelegram_mgmt (kind : kindOf t.h0 = .mgmt) :
    let r := executeHeld (payloadOf s.fwd.hold) s
    s.executeTelegram t = (r.record, regenerate (overwrite 4 (r.result.code :: r.state.summary :: r.reply) s.fwd.hold)) := by
  have other : kindOf t.h0 ≠ .assign := by
    rw [kind]
    decide
  rw [State.executeTelegram]
  exact if_neg other

theorem offerTaken_iff (mark offer : Byte) :
    s.offerTaken mark offer = true ↔ s.lrx.address = 0 ∧ mark = 0 ∧ 1 ≤ offer.toNat ∧ offer.toNat ≤ 126 := decide_eq_true_iff

theorem takeOffer_taken {mark offer : Byte} (taken : s.offerTaken mark offer = true) : s.takeOffer mark offer =
    { s with lrx := { s.lrx with address := offer }, mge := { s.mge with answer := some (.assign true) } } := if_pos taken

theorem takeOffer_refused {mark offer : Byte} (refused : ¬s.offerTaken mark offer = true) :
    s.takeOffer mark offer = { s with mge := { s.mge with answer := some (.assign false) } } := if_neg refused

theorem fixRestartPoint_eq (s : State) : s.fixRestartPoint = { s with mge := { s.mge with
    restart := if s.mge.restart = some .carrier then
      some (.after (s.fwd.fifo.length + if s.fwd.txo = .idle then 0 else 1)) else s.mge.restart } } := by
  by_cases carrier : s.mge.restart = some .carrier
  · rw [fixRestartPoint_of_carrier s carrier, if_pos carrier]
  · rw [fixRestartPoint_of_ne s carrier, if_neg carrier]

end

/-- FWD and MGE have no part in the edges (R128). -/
theorem settleEdges_with (s u : State) (f : Fwd) (m : Mge) :
    settleEdges s { u with fwd := f, mge := m } = { settleEdges s u with fwd := f, mge := m } := rfl

section
variable (s : State) (t : Telegram)

/-- The executor's result for the telegram in the hold buffer, and the telegram with it. -/
def executed : Executed := executeHeld (payloadOf s.fwd.hold) s

def answered : List LineChar :=
  regenerate (overwrite 4 ((executed s).result.code :: (executed s).state.summary :: (executed s).reply) s.fwd.hold)

theorem executed_fwd : (executed s).state.fwd.fifo = s.fwd.fifo ∧ (executed s).state.fwd.txo = s.fwd.txo := by
  have rule := (executeHeld_rule (payloadOf s.fwd.hold) s).fwd
  rw [executed, rule]
  exact ⟨rfl, rfl⟩

/-- MGE behind the end of an executed telegram: the answer, and the restart point of a RESTART carried by it (R40). -/
def answeredMge (fifo : List LineChar) : Mge :=
  { (executed s).state.mge with
    answer := some (.mgmt (executed s).result (executed s).state.summary (executed s).reply)
    restart := if (executed s).state.mge.restart = some .carrier then
      some (.after (fifo.length + if s.fwd.txo = .idle then 0 else 1)) else (executed s).state.mge.restart }

/-- The restart point is fixed behind the recorded answer (R40). -/
theorem recorded_fixed (e : Executed) (f : Fwd) : State.fixRestartPoint { e.record with fwd := f } = { e.state with
    fwd := f
    mge := { e.state.mge with
      answer := some (.mgmt e.result e.state.summary e.reply)
      restart := if e.state.mge.restart = some .carrier then
        some (.after (f.fifo.length + if f.txo = .idle then 0 else 1)) else e.state.mge.restart } } := fixRestartPoint_eq _

theorem endHeld_mgmt (room : s.fwd.fifo.length + s.fwd.hold.length ≤ 128) (kind : kindOf t.h0 = .mgmt) :
    s.endHeld t true = { (executed s).state with
      fwd := appended (executed s).state.fwd (answered s)
      mge := answeredMge s (s.fwd.fifo ++ answered s) } := by
  obtain ⟨fifo, txo⟩ := executed_fwd s
  have room' : (executed s).record.fwd.fifo.length + (answered s).length ≤ 128 := by
    rw [answered, regenerate_length, overwrite_length]
    show (executed s).state.fwd.fifo.length + s.fwd.hold.length ≤ 128
    rw [fifo]
    exact room
  rw [endHeld_good t room, executeTelegram_mgmt kind]
  show ((executed s).record.enterFifo (answered s)).closeForward.fixRestartPoint = _
  rw [append_closed room', answeredMge, ← fifo, ← txo]
  exact recorded_fixed (executed s) _

end

theorem endTelegram_held {s : State} {t : Telegram} (held : t.treatment = .held) (holding : s.fwd.state = .holding) (good : Bool)
    (first : Byte) (c : LineChar) : s.endTelegram t good first c =
      State.endHeld { s with fwd := { s.fwd with hold := s.fwd.hold ++ [c] } } t good := by
  unfold State.endTelegram State.endForward
  rw [held, holding]

/-- The last character of a held telegram: its hold buffer completed, then its end at FWD (R35, R39). -/
theorem exec_held_end {s : State} {t : Telegram} {first data : Byte} {time : Nat} (high : s.released)
    (receiving : s.lrx.rx = .receiving true) (parser : s.lrx.parser = .check t (some first))
    (holding : s.fwd.state = .holding) (held : t.treatment = .held) (good : Prop) [Decidable good]
    (decided : good ↔ CheckGood s first data) :
    let base := { parsed (s.afterStopBit true) with fwd := { s.fwd with
      hold := s.fwd.hold ++ [(⟨data, false, time, false⟩ : LineChar)] } }
    exec (.characterReceived data false true time) s =
      .next (settleEdges s ((if good then base else base.countError .crc).endHeld t (decide good))) := by
  intro base
  have same : { parsed (checked (s.afterStopBit true) good) with
      fwd := { (checked (s.afterStopBit true) good).fwd with
        hold := (checked (s.afterStopBit true) good).fwd.hold ++ [(⟨data, false, time, false⟩ : LineChar)] } } =
      if good then base else base.countError .crc := by
    unfold checked
    split <;> rfl
  have state : (parsed (checked (s.afterStopBit true) good)).fwd.state = .holding := by
    unfold checked
    split <;> exact holding
  rw [exec_check2 s t first data time high receiving parser,
    takeCheck2_eq (s.afterStopBit true) t first ⟨data, false, time, false⟩ good decided, endTelegram_held held state, ← same]
  rfl

end Sys2Proof.Machine.Held

open Sys2Proof.Machine.Held

/-- Settles O57: the room, the check and the kind decide the end, each by its own equation. -/
theorem heldTelegramIsExecutedAndAppended : Obligations.HeldTelegramIsExecutedAndAppended := by
  refine ⟨regenerate_append, fun first bytes cs => ⟨overwrite_length first bytes cs, fun i c => overwrite_get first bytes cs⟩,
    payloadOf_whole, rfl, ?_⟩
  intro s t first data time high receiving parser holding held fixed hold good g base ended emptied appended
  have ran : exec (.characterReceived data false true time) s = .next (settleEdges s (ended.endHeld t (decide good))) :=
    exec_held_end high receiving parser holding held good Iff.rfl
  have fwd : ended.fwd = { s.fwd with hold := hold } := by
    simp only [ended]
    split <;> rfl
  have blocks : ended.tb = s.tb ∧ ended.chn = s.chn ∧ ended.out = s.out ∧ ended.tiu = s.tiu := by
    simp only [ended]
    split <;> exact ⟨rfl, rfl, rfl, rfl⟩
  have ends {u : State} (work : ended.endHeld t (decide good) = u)
      (same : u.tb = s.tb ∧ u.chn = s.chn ∧ u.out = s.out ∧ u.tiu = s.tiu) :
      exec (.characterReceived data false true time) s = .next u := by
    obtain ⟨tb, chn, out, tiu⟩ := same
    rw [← settleEdges_of_blocks s u tb chn out tiu, ← work]
    exact ran
  refine ⟨fun full => ?_, fun room bad => ?_, fun room isGood kind => ?_, fun room isGood kind => ?_⟩
  · refine ends ((endHeld_unfit t (s := ended) (fwd ▸ full) _).trans ?_) blocks
    rw [fwd]
    rfl
  · refine ends ?_ blocks
    rw [decide_eq_false bad, endHeld_bad t (s := ended) (fwd ▸ room), fwd]
    rfl
  · intro mark offer
    have executed : ended.endHeld t (decide good) = ((base.takeOffer mark offer).enterFifo
        (if base.offerTaken mark offer then regenerate (overwrite 3 [1] hold) else hold)).closeForward.fixRestartPoint := by
      rw [show ended = base from if_pos isGood, decide_eq_true isGood, endHeld_good t (s := base) room,
        executeTelegram_assign kind]
    constructor
    · intro unassigned untaken low high
      have taken : base.offerTaken mark offer = true := (offerTaken_iff mark offer).mpr ⟨unassigned, untaken, low, high⟩
      have room' : s.fwd.fifo.length + (regenerate (overwrite 3 [1] hold)).length ≤ 128 := by
        rw [regenerate_length, overwrite_length]
        exact room
      refine ends (executed.trans ?_) ⟨rfl, rfl, rfl, rfl⟩
      rw [takeOffer_taken taken, if_pos taken]
      exact append_fixed (f := base.fwd) rfl room' fixed
    · intro untaken
      have refused : ¬base.offerTaken mark offer = true := fun taken => untaken ((offerTaken_iff mark offer).mp taken)
      refine ends (executed.trans ?_) ⟨rfl, rfl, rfl, rfl⟩
      rw [takeOffer_refused refused, if_neg refused]
      exact append_fixed (f := base.fwd) rfl room fixed
  · intro r
    have work := endHeld_mgmt base t room kind
    rw [show ended = base from if_pos isGood, decide_eq_true isGood, work, settleEdges_with] at ran
    have fifo : (appended r.state.fwd (answered base)).fifo = s.fwd.fifo ++ answered base :=
      congrArg (· ++ answered base) (executed_fwd base).1
    exact ⟨_, ran, rfl, fifo, congrArg (answeredMge base) fifo.symm, rfl⟩
end

section
/-! PROOFS. The holding list at the good end of a DATA telegram (R70, R72): each pending write reaches its channel alone, and a
channel that faults sets its flag. -/

open Sys2Proof Sys2Proof.Machine Sys2Proof.Machine.Timebases Sys2Proof.Machine.Ends

namespace Sys2Proof.Machine.Feeds

/-! ### What a fed channel becomes depends on that channel alone -/

/-- The two states agree in the record and the ring of channel `n`. -/
structure Alike (s u : State) (n : Fin 6) : Prop where
  chn : u.chn[n] = s.chn[n]
  ring : u.rings[n] = s.rings[n]

section
variable {s u : State} {n : Fin 6}

theorem Alike.refl (s : State) (n : Fin 6) : Alike s s n := ⟨rfl, rfl⟩

theorem Alike.trans {v : State} (h : Alike s u n) (k : Alike u v n) : Alike s v n := ⟨k.chn.trans h.chn, k.ring.trans h.ring⟩

theorem Alike.symm (h : Alike s u n) : Alike u s n := ⟨h.chn.symm, h.ring.symm⟩

theorem setChannel_alike (h : Alike s u n) (x : Channel) : Alike (s.setChannel n x) (u.setChannel n x) n :=
  ⟨by rw [State.setChannel_get, State.setChannel_get, if_pos rfl, if_pos rfl], h.ring⟩

theorem setRing_alike (h : Alike s u n) (x : Ring) : Alike (s.setRing n x) (u.setRing n x) n :=
  ⟨h.chn, by rw [State.setRing_get, State.setRing_get, if_pos rfl, if_pos rfl]⟩

theorem raise_alike (h : Alike s u n) (e : Exc) : Alike (s.raise n e) (u.raise n e) n := by
  unfold State.raise
  rw [h.chn]
  exact setChannel_alike h _

theorem enterFault_alike (h : Alike s u n) (cause : Exc) : Alike (s.enterFault n cause) (u.enterFault n cause) n := by
  unfold State.enterFault
  rw [h.chn, h.ring]
  have reset := setRing_alike (setChannel_alike h (s.chn[n].faulted cause)) s.rings[n].emptied
  exact ⟨reset.chn, reset.ring⟩

theorem push_alike (h : Alike s u n) (slot : Slot) : Alike (s.push n slot) (u.push n slot) n := by
  cases mode : s.rings[n].mode with
  | latest =>
    simp only [State.push, h.ring, mode]
    exact setRing_alike h _
  | queued =>
    simp only [State.push, h.chn, h.ring, mode]
    split
    · exact setRing_alike h _
    · split
      · exact setRing_alike (raise_alike h .overrun) _
      · exact enterFault_alike (raise_alike h .overrun) .overrun

theorem flagged_alike (h : Alike s u n) (raised : Option Exc) :
    Alike (Conversion.flagged s n raised) (Conversion.flagged u n raised) n := by
  cases raised with
  | none => exact h
  | some e => exact raise_alike h e

theorem deliver_alike (h : Alike s u n) (r : Converted) (origin : SlotOrigin) :
    Alike (s.deliver n r origin) (u.deliver n r origin) n := by
  cases outcome : r.outcome with
  | slot tag duty =>
    rw [Conversion.deliver_slot s n r origin tag duty outcome, Conversion.deliver_slot u n r origin tag duty outcome]
    exact push_alike (flagged_alike h r.raised) _
  | fault cause =>
    rw [Conversion.deliver_fault s n r origin cause outcome, Conversion.deliver_fault u n r origin cause outcome]
    exact enterFault_alike (flagged_alike h r.raised) cause

theorem feed_alike (h : Alike s u n) (record : Option ConvRecord) (x : Option Int) (origin : SlotOrigin) :
    Alike (s.feed n record x origin) (u.feed n record x origin) n := by
  unfold State.feed
  rw [h.chn]
  split
  · exact deliver_alike h _ origin
  · exact h

end

/-! ### One pending write (R70, R72) -/

section
variable {s : State} {w : PendingWrite} {n : Fin 6}

theorem processWrite_own (channel : w.channel.toNat = n.val) : s.processWrite w =
    s.feed n (s.map.recordFor w.conversion) (fieldValue w.format w.order w.raw) (.telegram w.cycle) := by
  simp only [State.processWrite, Conversion.channelOf_of_eq w.channel n channel]

theorem processWrite_other (channel : w.channel.toNat ≠ n.val) : Alike s (s.processWrite w) n := by
  unfold State.processWrite
  split
  next m named =>
    have apart : n ≠ m := by
      rintro rfl
      unfold channelOf at named
      split at named
      · exact channel (congrArg Fin.val (Option.some.inj named))
      · exact nomatch named
    obtain ⟨chn, ring⟩ := (s.feed_work m (s.map.recordFor w.conversion) (fieldValue w.format w.order w.raw)
      (.telegram w.cycle)).others n apart
    exact ⟨chn, ring⟩
  next => exact .refl s n

theorem foldl_other {l : List PendingWrite} (others : ∀ w ∈ l, w.channel.toNat ≠ n.val) (s : State) :
    Alike s (l.foldl State.processWrite s) n := by
  induction l generalizing s with
  | nil => exact .refl s n
  | cons w l ih =>
    have first : Alike s (s.processWrite w) n := processWrite_other (others w (List.mem_cons_self ..))
    exact first.trans (ih (fun x listed => others x (List.mem_cons_of_mem w listed)) _)

/-- Where each channel is named once, its pending write finds it as it was (R58, R70). -/
theorem foldl_own {l : List PendingWrite} (once : (l.map (·.channel)).Nodup) (listed : w ∈ l)
    (channel : w.channel.toNat = n.val) (s : State) : Alike
      (s.feed n (s.map.recordFor w.conversion) (fieldValue w.format w.order w.raw) (.telegram w.cycle))
      (l.foldl State.processWrite s) n := by
  induction l generalizing s with
  | nil => exact nomatch listed
  | cons x l ih =>
    obtain ⟨apart, rest⟩ := List.nodup_cons.mp once
    rcases List.mem_cons.mp listed with rfl | behind
    · rw [← processWrite_own channel]
      refine foldl_other (fun y among same => apart ?_) _
      show w.channel ∈ l.map (·.channel)
      rw [BitVec.eq_of_toNat_eq (channel.trans same.symm)]
      exact List.mem_map_of_mem among
    · have before : Alike s (s.processWrite x) n := by
        refine processWrite_other fun same => apart ?_
        show x.channel ∈ l.map (·.channel)
        rw [BitVec.eq_of_toNat_eq (same.trans channel.symm)]
        exact List.mem_map_of_mem behind
      have map : (s.processWrite x).map = s.map := by
        obtain ⟨-, -, map, -⟩ := (s.processWrite_work x).blocks
        exact map
      have own := ih rest behind (s.processWrite x)
      rw [map] at own
      exact (feed_alike before _ _ _).trans own

end

/-! ### Faults (R107) -/

/-- Work whose only new flags are those of channels that fault; no channel leaves FAULT. -/
structure FeedWork (s u : State) : Prop where
  flags : ∀ i, u.mge.flags.getLsbD i = (s.mge.flags.getLsbD i || faultedBetween s u i)
  stays : ∀ n : Fin 6, s.chn[n].state = .fault → u.chn[n].state = .fault

section
variable {s u v : State}

theorem FeedWork.refl (s : State) : FeedWork s s :=
  ⟨fun i => by rw [faultedBetween_of_same (fun _ => rfl), Bool.or_false], fun _ => id⟩

theorem faultedBetween_of_stays (first : ∀ n : Fin 6, s.chn[n].state = .fault → u.chn[n].state = .fault)
    (second : ∀ n : Fin 6, u.chn[n].state = .fault → v.chn[n].state = .fault) (i : Nat) :
    faultedBetween s v i = (faultedBetween s u i || faultedBetween u v i) := by
  rw [Bool.eq_iff_iff, Bool.or_eq_true, faultedBetween_iff, faultedBetween_iff, faultedBetween_iff]
  constructor
  · rintro ⟨n, index, other, fault⟩
    by_cases between : u.chn[n].state = .fault
    · exact .inl ⟨n, index, other, between⟩
    · exact .inr ⟨n, index, between, fault⟩
  · rintro (⟨n, index, other, fault⟩ | ⟨n, index, other, fault⟩)
    · exact ⟨n, index, other, second n fault⟩
    · exact ⟨n, index, fun before => other (first n before), fault⟩

theorem FeedWork.trans (h : FeedWork s u) (k : FeedWork u v) : FeedWork s v :=
  ⟨fun i => by rw [k.flags, h.flags, Bool.or_assoc, faultedBetween_of_stays h.stays k.stays],
    fun n fault => k.stays n (h.stays n fault)⟩

theorem processWrite_feed (s : State) (w : PendingWrite) : FeedWork s (s.processWrite w) := by
  unfold State.processWrite
  split
  next m named =>
    have work := s.feed_work m (s.map.recordFor w.conversion) (fieldValue w.format w.order w.raw) (.telegram w.cycle)
    refine ⟨flags_of_flagsTheFault (fun n other => (work.others n other).1) (feed_flags s m _ _ _), fun n fault => ?_⟩
    by_cases own : n = m
    · subst own
      rw [Conversion.feed_discarded s n _ _ _ (.inr fault)]
      exact fault
    · rw [(work.others n own).1]
      exact fault
  next => exact .refl s

theorem foldl_feed (l : List PendingWrite) (s : State) : FeedWork s (l.foldl State.processWrite s) := by
  induction l generalizing s with
  | nil => exact .refl s
  | cons w l ih => exact (processWrite_feed s w).trans (ih _)

end

/-! ### The whole list -/

/-- MAP behind the good end (R60, R64, R71). -/
def ended (m : MapUnit) (cycle : Byte) : MapUnit :=
  { m with plan := none, snapshot := none, holding := [], lastCycle := if m.holding = [] then m.lastCycle else cycle }

theorem processHolding_eq (s : State) (cycle : Byte) :
    s.processHolding cycle = { s.map.holding.foldl State.processWrite s with map := ended s.map cycle } := by
  obtain ⟨-, -, map, -⟩ := (ChannelsWork.foldl _ State.processWrite_work s.map.holding s).blocks
  unfold State.processHolding ended
  cases holding : s.map.holding with
  | nil => rfl
  | cons w l =>
    rw [holding] at map
    dsimp only [List.isEmpty_cons]
    rw [if_neg (by decide), if_neg (List.cons_ne_nil w l), State.dropPlan, map]

end Sys2Proof.Machine.Feeds
end

section
/-! PROOFS. LCH at the good end of a DATA telegram (R159 to R165), with the states it passes through. -/

open Sys2Proof Sys2Proof.Machine Sys2Proof.Machine.Loads Sys2Proof.Machine.Ends

namespace Sys2Proof.Machine.Chunks

/-! ### The states of LCH's work (R159) -/

section
variable (p : State)

/-- Both captures judged (R160, R161). -/
def judged : State := (p.judge 0).judge 1

/-- The flags of the load channels that ended (R162). -/
def flagged : State := State.loadFlags p (State.loadFlags p (judged p) 0) 1

/-- The chain taken (R163, R164). -/
def chained : State := State.chain p (flagged p)

/-- The auto-commit taken (R165). -/
def committed : State := if autoCommitWanted p (judged p) then (commit .auto (chained p)).state else chained p

theorem loadsAtEnd_eq : p.loadsAtEnd = (committed p).dropCaptures := rfl

end

/-! ### Flags (R162) -/

section
variable (before s : State) (k : Fin 2)

theorem loadFlags_eq : State.loadFlags before s k =
    { s with mge := { s.mge with flags := (State.loadFlags before s k).mge.flags } } := by
  unfold State.loadFlags
  dsimp only
  split <;> split <;> rfl

/-- Work on the attention flags, then more of it. -/
theorem flags_only_trans {s u v : State} (h : u = { s with mge := { s.mge with flags := u.mge.flags } })
    (k : v = { u with mge := { u.mge with flags := v.mge.flags } }) : v = { s with mge := { s.mge with flags := v.mge.flags } } := by
  rw [h] at k
  exact k

/-- Work on the attention flags, then on the load channels. -/
theorem lch_only_trans {s u v : State} {m : Mge} (h : u = { s with mge := { m with flags := u.mge.flags } })
    (k : v = { u with lch := v.lch }) : v = { s with mge := { m with flags := v.mge.flags }, lch := v.lch } := by
  have mge : v.mge = u.mge := by rw [k]
  rw [mge]
  rw [h] at k
  exact k

theorem setFlag_bit (a : Attention) {i : Nat} (small : i < 13) :
    (s.setFlag a).mge.flags.getLsbD i = (s.mge.flags.getLsbD i || decide (i = a.index)) := by
  rw [State.setFlag_flags, BitVec.getLsbD_or, ← BitVec.twoPow_eq, BitVec.getLsbD_twoPow]
  congr 1
  rw [Bool.eq_iff_iff, Bool.and_eq_true, decide_eq_true_iff, decide_eq_true_iff, decide_eq_true_iff]
  constructor
  · exact fun h => h.2.symm
  · exact fun h => ⟨h ▸ small, h.symm⟩

/-- A flag set under a condition. -/
theorem setFlag_bit_if (set : Bool) (a : Attention) {i : Nat} (small : i < 13) :
    (if set then s.setFlag a else s).mge.flags.getLsbD i = (s.mge.flags.getLsbD i || (decide (i = a.index) && set)) := by
  cases set with
  | true => rw [if_pos rfl, setFlag_bit s a small, Bool.and_true]
  | false => rw [if_neg (by decide), Bool.and_false, Bool.or_false]

theorem loadEntered_congr {u : State} (lch : u.lch = s.lch) (x : LoadState) :
    loadEntered before u k x = loadEntered before s k x := by
  unfold loadEntered
  rw [lch]

theorem loadFlags_bit {i : Nat} (small : i < 13) : (State.loadFlags before s k).mge.flags.getLsbD i =
    (s.mge.flags.getLsbD i || (decide (i = 7 + k.val) && loadEntered before s k .complete) ||
      (decide (i = 9 + k.val) && loadEntered before s k .terminated)) := by
  have lch : (if loadEntered before s k .complete then s.setFlag (.loadComplete k) else s).lch = s.lch := by
    split <;> rfl
  unfold State.loadFlags
  dsimp only
  rw [setFlag_bit_if _ _ (.loadError k) small, setFlag_bit_if _ _ (.loadComplete k) small,
    loadEntered_congr before s k lch]
  rfl

end

section
variable (p : State)

theorem flagged_eq : flagged p = { judged p with mge := { (judged p).mge with flags := (flagged p).mge.flags } } :=
  flags_only_trans (loadFlags_eq p (judged p) 0) (loadFlags_eq p (State.loadFlags p (judged p) 0) 1)

theorem judged_mge : (judged p).mge = p.mge := (judge_flags _ 1).trans (judge_flags p 0)

theorem flagged_lch : (flagged p).lch = (judged p).lch := by rw [flagged_eq]

theorem flagged_bit {i : Nat} (small : i < 13) : (flagged p).mge.flags.getLsbD i = (p.mge.flags.getLsbD i ||
    (decide (i = 7) && loadEntered p (judged p) 0 .complete) || (decide (i = 8) && loadEntered p (judged p) 1 .complete) ||
    (decide (i = 9) && loadEntered p (judged p) 0 .terminated) ||
    (decide (i = 10) && loadEntered p (judged p) 1 .terminated)) := by
  have lch : (State.loadFlags p (judged p) 0).lch = (judged p).lch := by rw [loadFlags_eq]
  unfold flagged
  rw [loadFlags_bit _ _ 1 small, loadFlags_bit _ _ 0 small, loadEntered_congr p (judged p) 1 lch,
    loadEntered_congr p (judged p) 1 lch, judged_mge]
  show (p.mge.flags.getLsbD i || (decide (i = 7) && _) || (decide (i = 9) && _) || (decide (i = 8) && _) ||
    (decide (i = 10) && _)) = _
  ac_rfl

end

/-! ### The chain (R163, R164) -/

section
variable (before u : State)

/-- The chain moves LC1 alone. -/
theorem chain_eq : State.chain before u = { u with lch := (State.chain before u).lch } ∧
    (State.chain before u).lch[0] = u.lch[0] := by
  have moved (x : LoadChannel) : (u.setLoad 1 x).lch[0] = u.lch[0] :=
    (State.setLoad_get u 1 0 x).trans (if_neg (by decide))
  unfold State.chain State.cancelWaiting
  split
  · split
    · exact ⟨rfl, moved _⟩
    · exact ⟨rfl, rfl⟩
  · split
    · split
      · exact ⟨rfl, moved _⟩
      · exact ⟨rfl, rfl⟩
    · exact ⟨rfl, rfl⟩

theorem chain_of_neither (complete : loadEntered before u 0 .complete = false)
    (terminated : loadEntered before u 0 .terminated = false) : State.chain before u = u := by
  rw [State.chain, complete, terminated]
  rfl

theorem chain_of_unchained (entered : loadEntered before u 0 .complete = true) {d : Descriptor}
    (descriptor : u.lch[0].descriptor = some d) (alone : d.chain = false) : State.chain before u = u := by
  have notTerminated : ¬loadEntered before u 0 .terminated = true := fun terminated => nomatch
    ((loadEntered_iff before u 0 .complete).mp entered).2.symm.trans ((loadEntered_iff before u 0 .terminated).mp terminated).2
  rw [State.chain, entered, descriptor, Option.any_some, alone, if_neg notTerminated]
  rfl

end

section
variable (p : State)

theorem chained_eq : chained p = { judged p with
    mge := { p.mge with flags := (chained p).mge.flags }, lch := (chained p).lch } := by
  have work := flagged_eq p
  rw [judged_mge] at work
  exact lch_only_trans work (chain_eq p (flagged p)).1

theorem chained_flags : (chained p).mge.flags = (flagged p).mge.flags := congrArg Mge.flags (chain_mge p (flagged p))

theorem chained_first : (chained p).lch[0] = (judged p).lch[0] := by
  have first := (chain_eq p (flagged p)).2
  rw [flagged_lch] at first
  exact first

theorem flagged_entered (k : Fin 2) (x : LoadState) : loadEntered p (flagged p) k x = loadEntered p (judged p) k x :=
  loadEntered_congr p (judged p) k (flagged_lch p) x

theorem chained_of_complete (waiting : (judged p).lch[1].state = .waiting)
    (entered : loadEntered p (judged p) 0 .complete = true) {d : Descriptor}
    (descriptor : (judged p).lch[0].descriptor = some d) :
    (chained p).lch[1] = { (judged p).lch[1] with state := if d.chain then .active else .waiting } := by
  have entered' : loadEntered p (flagged p) 0 .complete = true := (flagged_entered p 0 .complete).trans entered
  have descriptor' : (flagged p).lch[0].descriptor = some d := by simpa only [flagged_lch] using descriptor
  have waiting' : (flagged p).lch[1].state = .waiting := by simpa only [flagged_lch] using waiting
  unfold chained
  cases chains : d.chain with
  | true =>
    rw [chain_of_complete waiting' entered' descriptor' chains, if_pos rfl]
    refine (State.setLoad_get _ 1 1 _).trans ?_
    simp only [flagged_lch, if_true]
  | false =>
    rw [chain_of_unchained p (flagged p) entered' descriptor' chains, if_neg (by decide), ← waiting]
    simp only [flagged_lch]

theorem chained_of_terminated (waiting : (judged p).lch[1].state = .waiting)
    (entered : loadEntered p (judged p) 0 .terminated = true) :
    (chained p).lch[1] = { (judged p).lch[1] with state := .cancelled } := by
  have entered' : loadEntered p (flagged p) 0 .terminated = true := (flagged_entered p 0 .terminated).trans entered
  have waiting' : (flagged p).lch[1].state = .waiting := by simpa only [flagged_lch] using waiting
  unfold chained
  rw [Loads.chain_of_terminated waiting' entered']
  refine (State.setLoad_get _ 1 1 _).trans ?_
  simp only [flagged_lch, if_true]

theorem chained_of_rest (rest : (judged p).lch[1].state ≠ .waiting ∨
    loadEntered p (judged p) 0 .complete = false ∧ loadEntered p (judged p) 0 .terminated = false) :
    (chained p).lch[1] = (judged p).lch[1] := by
  have same : chained p = flagged p := by
    rcases rest with alone | ⟨complete, terminated⟩
    · exact chain_of_alone (by simpa only [flagged_lch] using alone)
    · exact chain_of_neither p (flagged p) ((flagged_entered p 0 .complete).trans complete)
        ((flagged_entered p 0 .terminated).trans terminated)
  rw [same]
  simp only [flagged_lch]

end

/-! ### The auto-commit (R165) -/

theorem autoCommitWanted_iff (before after : State) : autoCommitWanted before after = true ↔
    ∃ (k : Fin 2) (d : Descriptor), loadEntered before after k .complete = true ∧ after.lch[k].descriptor = some d ∧
      d.autoCommit = true := by
  have each (k : Fin 2) : (loadEntered before after k .complete && after.lch[k].descriptor.any (·.autoCommit)) = true ↔
      ∃ d : Descriptor, loadEntered before after k .complete = true ∧ after.lch[k].descriptor = some d ∧
        d.autoCommit = true := by
    rw [Bool.and_eq_true, Option.any_eq_true]
    constructor
    · rintro ⟨entered, d, descriptor, wanted⟩
      exact ⟨d, entered, descriptor, wanted⟩
    · rintro ⟨d, entered, descriptor, wanted⟩
      exact ⟨entered, d, descriptor, wanted⟩
  rw [autoCommitWanted, List.any_eq_true]
  constructor
  · rintro ⟨k, -, wanted⟩
    exact ⟨k, (each k).mp wanted⟩
  · rintro ⟨k, wanted⟩
    refine ⟨k, ?_, (each k).mpr wanted⟩
    rcases firstOrSecond k with rfl | rfl
    · exact List.mem_cons_self ..
    · exact List.mem_cons_of_mem _ (List.mem_cons_self ..)

section
variable {p : State}

theorem committed_of_unwanted (unwanted : ¬autoCommitWanted p (judged p) = true) : committed p = chained p := if_neg unwanted

variable (wanted : autoCommitWanted p (judged p) = true)
include wanted

theorem committed_of_wanted : committed p = (commit .auto (chained p)).state := if_pos wanted

theorem committed_of_held (held : (chained p).anyHeld = true) : committed p = { chained p with
    map := { (chained p).map with report := .busy .auto }
    mge := { (chained p).mge with flags := (chained p).mge.flags ||| 0x1000 } } := by
  rw [committed_of_wanted wanted, Banks.commit_of_held .auto held]
  rfl

variable (free : ¬(chained p).anyHeld = true)
include free

theorem committed_of_rejected {entry check : Byte} (failed : (chained p).map.validate = some (entry, check)) :
    committed p = { chained p with
      map := { (chained p).map with report := .rejected .auto entry check }
      mge := { (chained p).mge with flags := (chained p).mge.flags ||| 0x1000 } } := by
  rw [committed_of_wanted wanted, Banks.commit_of_rejected .auto free failed]
  rfl

theorem committed_of_passed (passed : (chained p).map.validate = none) : committed p = { chained p with
    map := { (chained p).map with
      role := (chained p).map.role.other
      mapA := (chained p).map.stagedMap, mapB := (chained p).map.stagedMap
      convA := (chained p).map.stagedConv, convB := (chained p).map.stagedConv
      report := .done .auto } } := by
  rw [committed_of_wanted wanted, Banks.commit_of_passed .auto free passed]
  rfl

end

/-! ### What LCH's work leaves -/

/-- LCH leaves the channels, and of MAP what the telegram opened and the last cycle number. -/
theorem loadsAtEnd_leaves (p : State) : p.loadsAtEnd.chn = p.chn ∧ p.loadsAtEnd.rings = p.rings ∧
    p.loadsAtEnd.map.plan = p.map.plan ∧ p.loadsAtEnd.map.snapshot = p.map.snapshot ∧
    p.loadsAtEnd.map.holding = p.map.holding ∧ p.loadsAtEnd.map.lastCycle = p.map.lastCycle := by
  obtain ⟨-, map, ⟨-, -, rings, chn, -⟩, -⟩ := p.loadsAtEnd_work
  rw [map]
  exact ⟨chn, rings, rfl, rfl, rfl, rfl⟩

/-! ### No capture (R153) -/

section
variable {p : State} (none : ∀ k : Fin 2, p.lch[k].capture = none)
include none

theorem judged_of_none : judged p = p := by
  rw [judged, judge_of_no_capture p 0 (none 0), judge_of_no_capture p 1 (none 1)]

theorem committed_of_none : committed p = p := by
  have still (k : Fin 2) (x : LoadState) : loadEntered p p k x = false := by
    rw [Bool.eq_false_iff]
    exact fun entered => ((loadEntered_iff p p k x).mp entered).1 ((loadEntered_iff p p k x).mp entered).2
  have unflagged (k : Fin 2) : State.loadFlags p p k = p := by
    simp only [State.loadFlags, still, Bool.false_eq_true, if_false]
  have unchained : chained p = p := by
    rw [chained, flagged, judged_of_none none, unflagged, unflagged, chain_of_neither p p (still 0 _) (still 0 _)]
  have unwanted : ¬autoCommitWanted p p = true := fun wanted => by
    obtain ⟨k, d, entered, -⟩ := (autoCommitWanted_iff p p).mp wanted
    rw [still] at entered
    exact nomatch entered
  rw [committed, judged_of_none none, if_neg unwanted, unchained]

theorem dropCaptures_of_none : p.dropCaptures = p := by
  have same : p.lch.map (fun l => { l with capture := .none }) = p.lch := by
    ext i inside : 1
    rw [Vector.getElem_map]
    have closed := none ⟨i, inside⟩
    rw [Fin.getElem_fin] at closed
    rw [← closed]
  rw [State.dropCaptures, same]

end

end Sys2Proof.Machine.Chunks
end

section
/-! PROOFS. The end of a DATA telegram (R70, R71, R159). -/

open Sys2Proof Sys2Proof.Machine Sys2Proof.Machine.Receiver Sys2Proof.Machine.Characters Sys2Proof.Machine.Broadcast
  Sys2Proof.Machine.Checks Sys2Proof.Machine.Ends Sys2Proof.Machine.Feeds Sys2Proof.Machine.Chunks

namespace Sys2Proof.Machine.DataEnds

/-! ### FWD's end (R25, R29, R33) -/

theorem enterFifo_counted (s : State) (cs : List LineChar) : s.enterFifo cs =
    { (if s.fits cs then s else s.countError .overrun) with fwd := (s.enterFifo cs).fwd } := by
  unfold State.enterFifo
  dsimp only
  split <;> rfl

/-- OVERRUN counted where check character 2 meets a full FIFO (R29). -/
def overrunAtEnd (s : State) : State :=
  if s.fwd.state = .passing ∧ 128 ≤ s.fwd.fifo.length then s.countError .overrun else s

theorem endPassing_counted (s : State) (good : Bool) (first : Byte) (c : LineChar) : s.endPassing good first c =
    { (if 128 ≤ s.fwd.fifo.length then s.countError .overrun else s) with fwd := (s.endPassing good first c).fwd } := by
  have level (released : List LineChar) (same : released.length = s.fwd.fifo.length) (x : LineChar) :
      State.fits { s with fwd := { s.fwd with fifo := released } } [x] = !decide (128 ≤ s.fwd.fifo.length) := by
    rw [State.fits, State.level, same, ← decide_not]
    exact decide_eq_decide.mpr (by rw [List.length_singleton, show Config.fifoCapacity = 128 from rfl]; omega)
  unfold State.endPassing
  dsimp only
  rw [enterFifo_counted, level _ (List.length_map _)]
  by_cases full : 128 ≤ s.fwd.fifo.length
  · rw [if_pos full, decide_eq_true full]
    rfl
  · rw [if_neg full, decide_eq_false full]
    rfl

/-- Outside HOLDING the end of a telegram at FWD touches FWD, and counts OVERRUN in PASSING at a full FIFO. -/
theorem endForward_counted {s : State} (other : s.fwd.state ≠ .holding) (t : Telegram) (good : Bool) (first : Byte) (c : LineChar) :
    ∃ f, s.endForward t good first c = { overrunAtEnd s with fwd := f } := by
  unfold overrunAtEnd
  by_cases passing : s.fwd.state = .passing
  · refine ⟨(s.endPassing good first c).fwd, ?_⟩
    rw [endForward_passing s t good first c passing]
    by_cases full : 128 ≤ s.fwd.fifo.length
    · rw [if_pos ⟨passing, full⟩]
      have counted := endPassing_counted s good first c
      rwa [if_pos full] at counted
    · rw [if_neg fun h => full h.2]
      have counted := endPassing_counted s good first c
      rwa [if_neg full] at counted
  · rw [if_neg fun h => passing h.1]
    refine ⟨closed s.fwd, ?_⟩
    unfold State.endForward
    split
    · exact absurd ‹_› passing
    · exact absurd ‹_› other
    all_goals rfl

/-! ### The blocks behind FWD -/

theorem channelsWork_eq {s u : State} (work : ChannelsWork s u) :
    u = { s with chn := u.chn, rings := u.rings, mge := { s.mge with flags := u.mge.flags } } := by
  obtain ⟨mge, ⟨lrx, fwd, map, tb, out, tiu, lch⟩, pins, free, pending⟩ := work
  rw [← mge, ← lrx, ← fwd, ← map, ← tb, ← out, ← tiu, ← lch, ← pins, ← free, ← pending]

/-- The state of MAP's work at a good end, before LCH's (R70, R159). -/
theorem processHolding_shape (r : State) (cycle : Byte) : r.processHolding cycle = { r with
    map := ended r.map cycle
    chn := (r.processHolding cycle).chn
    rings := (r.processHolding cycle).rings
    mge := { r.mge with flags := (r.processHolding cycle).mge.flags } } := by
  have work := channelsWork_eq (ChannelsWork.foldl _ State.processWrite_work r.map.holding r)
  rw [processHolding_eq]
  exact congrArg (fun q : State => { q with map := ended r.map cycle }) work

theorem endTelegram_data {s : State} {t : Telegram} (data : t.treatment = .data) (good : Bool) (first : Byte) (c : LineChar) :
    s.endTelegram t good first c = (s.endForward t good first c).endData t.h1 good := by
  unfold State.endTelegram
  rw [data]

/-- The state behind FWD's end of a DATA telegram: LRX, FWD and the attention flags differ from before. -/
def forwardEnded (s : State) (counters : Vector Nat 6) (flags : BitVec 13) (f : Fwd) : State :=
  { s.afterStopBit true with
    lrx := { (s.afterStopBit true).lrx with parser := .idle, gap := none, counters := counters }
    fwd := f
    mge := { s.mge with flags := flags } }

theorem forwardEnded_eq (s : State) (good : Prop) [Decidable good] (f : Fwd) : ∃ counters flags,
    { overrunAtEnd (parsed (checked (s.afterStopBit true) good)) with fwd := f } = forwardEnded s counters flags f := by
  unfold checked overrunAtEnd
  split <;> split <;> exact ⟨_, _, rfl⟩

/-- The line counters behind the good end of a DATA telegram (R19, R29). -/
def countersAtEnd (s : State) : Vector Nat 6 :=
  if s.fwd.state = .passing ∧ 128 ≤ s.fwd.fifo.length then s.lrx.counters.set 5 (saturate16 s.lrx.counters[5]) else s.lrx.counters

theorem forwardEnded_good {s : State} {good : Prop} [Decidable good] (isGood : good) (f : Fwd) :
    { overrunAtEnd (parsed (checked (s.afterStopBit true) good)) with fwd := f } =
      forwardEnded s (countersAtEnd s) (overrunAtEnd s).mge.flags f := by
  rw [checked, if_pos isGood]
  unfold overrunAtEnd countersAtEnd
  have same : (parsed (s.afterStopBit true)).fwd = s.fwd := rfl
  rw [same]
  split <;> rfl

/-- The state behind MAP's work at the good end of a DATA telegram (R70). -/
def processed (s : State) (f : Fwd) (cycle : Byte) : State :=
  (forwardEnded s (countersAtEnd s) (overrunAtEnd s).mge.flags f).processHolding cycle

section
variable {s : State} {t : Telegram} {first data : Byte} (time : Nat) (high : s.released)
  (receiving : s.lrx.rx = .receiving true) (parser : s.lrx.parser = .check t (some first)) (treatment : t.treatment = .data)
  (other : s.fwd.state ≠ .holding)
include high receiving parser treatment other

/-- The last character of a DATA telegram: FWD's end, then MAP's and LCH's. -/
theorem exec_data_end (good : Prop) [Decidable good] (decided : good ↔ CheckGood s first data) :
    ∃ f, exec (.characterReceived data false true time) s = .next (settleEdges s
      (State.endData { overrunAtEnd (parsed (checked (s.afterStopBit true) good)) with fwd := f } t.h1 (decide good))) := by
  have state : (parsed (checked (s.afterStopBit true) good)).fwd.state ≠ .holding := by
    unfold checked
    split <;> exact other
  obtain ⟨f, forwarded⟩ := endForward_counted state t (decide good) first ⟨data, false, time, false⟩
  refine ⟨f, ?_⟩
  rw [exec_check2 s t first data time high receiving parser,
    takeCheck2_eq (s.afterStopBit true) t first ⟨data, false, time, false⟩ good decided, endTelegram_data treatment, forwarded]

theorem exec_data_bad (bad : ¬CheckGood s first data) : ∃ counters flags f,
    exec (.characterReceived data false true time) s = .next (forwardEnded s counters flags f).dropPlan.dropCaptures := by
  obtain ⟨f, ran⟩ := exec_data_end time high receiving parser treatment other False ⟨False.elim, bad⟩
  obtain ⟨counters, flags, same⟩ := forwardEnded_eq s False f
  rw [same] at ran
  refine ⟨counters, flags, f, ran.trans (congrArg Host.Outcome.next ?_)⟩
  exact settleEdges_of_blocks s (forwardEnded s counters flags f).dropPlan.dropCaptures rfl rfl rfl rfl

theorem exec_data_good (good : CheckGood s first data) : ∃ f, exec (.characterReceived data false true time) s =
    .next (settleEdges s (committed (processed s f t.h1)).dropCaptures) := by
  obtain ⟨f, ran⟩ := exec_data_end time high receiving parser treatment other True ⟨fun _ => good, fun _ => trivial⟩
  rw [forwardEnded_good trivial] at ran
  exact ⟨f, ran⟩

end

theorem overrunAtEnd_bit (s : State) {i : Nat} (small : i < 13) : (overrunAtEnd s).mge.flags.getLsbD i =
    (s.mge.flags.getLsbD i || (decide (i = 11) && decide (s.fwd.state = .passing ∧ 128 ≤ s.fwd.fifo.length))) := by
  unfold overrunAtEnd
  by_cases h : s.fwd.state = .passing ∧ 128 ≤ s.fwd.fifo.length
  · rw [if_pos h, decide_eq_true h, Bool.and_true]
    exact setFlag_bit _ .lineError small
  · rw [if_neg h, decide_eq_false h, Bool.and_false, Bool.or_false]

theorem faultedBetween_congr {s s' u u' : State} (before : s'.chn = s.chn) (after : u'.chn = u.chn) (i : Nat) :
    faultedBetween s' u' i = faultedBetween s u i := by
  unfold faultedBetween
  rw [before, after]

section
variable (s : State) (f : Fwd) (cycle : Byte)

theorem processed_eq : processed s f cycle = { forwardEnded s (countersAtEnd s) (processed s f cycle).mge.flags f with
    map := ended s.map cycle
    chn := (processed s f cycle).chn
    rings := (processed s f cycle).rings } :=
  processHolding_shape (forwardEnded s (countersAtEnd s) (overrunAtEnd s).mge.flags f) cycle

theorem processed_lch : (processed s f cycle).lch = s.lch := by
  rw [processed_eq]
  rfl

/-- The channels and the flags are those of the list processed. -/
theorem processed_fed : ∃ r, (∀ n, Alike s r n) ∧ r.map = s.map ∧ r.chn = s.chn ∧ r.mge.flags = (overrunAtEnd s).mge.flags ∧
    (processed s f cycle).chn = (s.map.holding.foldl State.processWrite r).chn ∧
    (processed s f cycle).rings = (s.map.holding.foldl State.processWrite r).rings ∧
    (processed s f cycle).mge.flags = (s.map.holding.foldl State.processWrite r).mge.flags := by
  refine ⟨forwardEnded s (countersAtEnd s) (overrunAtEnd s).mge.flags f, fun n => ⟨rfl, rfl⟩, rfl, rfl, rfl, ?_⟩
  unfold processed
  rw [processHolding_eq]
  exact ⟨rfl, rfl, rfl⟩

theorem processed_other {n : Fin 6} (others : ∀ w ∈ s.map.holding, w.channel.toNat ≠ n.val) :
    Alike s (processed s f cycle) n := by
  obtain ⟨r, before, -, -, -, chn, rings, -⟩ := processed_fed s f cycle
  have same := (before n).trans (foldl_other others r)
  exact ⟨(congrArg (·[n]) chn).trans same.chn, (congrArg (·[n]) rings).trans same.ring⟩

theorem processed_own (once : (s.map.holding.map (·.channel)).Nodup) {w : PendingWrite} (listed : w ∈ s.map.holding) {n : Fin 6}
    (channel : w.channel.toNat = n.val) : Alike
      (s.feed n (s.map.recordFor w.conversion) (fieldValue w.format w.order w.raw) (.telegram w.cycle))
      (processed s f cycle) n := by
  obtain ⟨r, before, map, -, -, chn, rings, -⟩ := processed_fed s f cycle
  have own := foldl_own once listed channel r
  rw [map] at own
  have same := (feed_alike (before n) _ _ _).trans own
  exact ⟨(congrArg (·[n]) chn).trans same.chn, (congrArg (·[n]) rings).trans same.ring⟩

theorem processed_bit {i : Nat} (small : i < 13) : (processed s f cycle).mge.flags.getLsbD i =
    (s.mge.flags.getLsbD i || faultedBetween s (processed s f cycle) i ||
      (decide (i = 11) && decide (s.fwd.state = .passing ∧ 128 ≤ s.fwd.fifo.length))) := by
  obtain ⟨r, -, -, same, counted, chn, -, flags⟩ := processed_fed s f cycle
  rw [flags, (foldl_feed s.map.holding r).flags, counted, overrunAtEnd_bit s small, Bool.or_right_comm,
    faultedBetween_congr (s := s) (s' := r) same chn.symm]

/-- Nothing of the telegram is left open behind LCH's work (R60, R71, R154). -/
theorem processed_noData : NoData (settleEdges s (committed (processed s f cycle)).dropCaptures) := by
  obtain ⟨-, -, plan, snapshot, holding, -⟩ := loadsAtEnd_leaves (processed s f cycle)
  have map : (processed s f cycle).map = ended s.map cycle := by rw [processed_eq]
  rw [map] at plan snapshot holding
  exact ⟨plan, snapshot, holding, fun k => State.dropCaptures_capture _ k⟩

end

end Sys2Proof.Machine.DataEnds

open Sys2Proof.Machine.DataEnds

/-- Settles O58: a bad end drops what the telegram opened; a good end is MAP's list, then LCH's judging, chain and auto-commit. -/
theorem dataTelegramEndsWholeOrNotAtAll : Obligations.DataTelegramEndsWholeOrNotAtAll := by
  refine ⟨fun m => ⟨Conversion.recordFor_of_large m 0xFF (by decide), Conversion.recordFor_of_eq m⟩, ?_⟩
  intro s t first data time high receiving parser treatment other good overran
  refine ⟨fun bad => ?_, fun isGood => ?_⟩
  · obtain ⟨counters, flags, f, ran⟩ := exec_data_bad time high receiving parser treatment other bad
    exact ⟨_, ran, ⟨rfl, rfl, rfl, fun k => State.dropCaptures_capture _ k⟩, rfl, rfl, rfl, rfl, rfl, rfl, rfl⟩
  · obtain ⟨f, ran⟩ := exec_data_good time high receiving parser treatment other isGood
    let p := processed s f t.h1
    refine ⟨p, chained p, committed p, settleEdges s (committed p).dropCaptures, ?_, fun once => ⟨fun n others => ?_,
      fun w listed n channel => ?_⟩, fun i small => processed_bit s f t.h1 small, ?_⟩
    · have fwd : p.fwd = f := congrArg State.fwd (processed_eq s f t.h1)
      rw [fwd]
      exact processed_eq s f t.h1
    · obtain ⟨chn, ring⟩ := processed_other s f t.h1 others
      exact ⟨chn, ring⟩
    · obtain ⟨chn, ring⟩ := processed_own s f t.h1 once listed channel
      exact ⟨chn, ring⟩
    · intro j entered
      have same (k : Fin 2) (x : LoadState) : loadEntered p j k x = entered k x := (Bool.decide_and ..).symm
      refine ⟨chained_eq p, fun i small => ?_, chained_first p, fun waiting complete d descriptor => ?_,
        fun waiting terminated => ?_, fun rest => ?_, ?_⟩
      · rw [chained_flags, flagged_bit p small, ← same, ← same, ← same, ← same]
        rfl
      · exact chained_of_complete p waiting ((same 0 .complete).trans complete) descriptor
      · exact chained_of_terminated p waiting ((same 0 .terminated).trans terminated)
      · refine chained_of_rest p (rest.imp_right fun neither => ?_)
        exact ⟨(same 0 .complete).trans neither.1, (same 0 .terminated).trans neither.2⟩
      · intro wanted held
        have isWanted : autoCommitWanted p j = true ↔ wanted := (autoCommitWanted_iff p j).trans
          (exists_congr fun k => exists_congr fun d => and_congr_left' (by rw [same]))
        have isHeld : (chained p).anyHeld = true ↔ held := Banks.anyHeld_iff
        obtain ⟨chn, rings, -, -, -, lastCycle⟩ := loadsAtEnd_leaves p
        rw [loadsAtEnd_eq] at chn rings lastCycle
        refine ⟨fun unwanted => committed_of_unwanted (mt isWanted.mp unwanted),
          fun now busy => committed_of_held (isWanted.mpr now) (isHeld.mpr busy),
          fun now free entry check failed => committed_of_rejected (isWanted.mpr now) (mt isHeld.mp free) failed,
          fun now free passed => committed_of_passed (isWanted.mpr now) (mt isHeld.mp free) passed,
          rfl, ran, processed_noData s f t.h1, (settleEdges_chn s _).trans chn, (settleEdges_rings s _).trans rings,
          (congrArg MapUnit.lastCycle (settleEdges_map s _)).trans lastCycle, fun none => ?_⟩
        · have lch : p.lch = s.lch := processed_lch s f t.h1
          have closed (k : Fin 2) : p.lch[k].capture = .none := by
            rw [lch]
            exact none k
          rw [committed_of_none closed, dropCaptures_of_none closed]
          exact ⟨lch, rfl⟩
end
